-- ==== Sys2Proof/Word.lean ====
section
/-! DEFINITION. The widths of USFP: bytes, 16-bit values, 64-bit command descriptors (30_encoding.md R60, 20_memory.md R44). -/

namespace Sys2Proof

/-- One byte of a buffer or a queue (20_memory.md R44). -/
abbrev Byte := BitVec 8

/-- A 16-bit value: a register, the completion record, the revision code. -/
abbrev Half := BitVec 16

/-- A command descriptor `D[63:0]` (30_encoding.md R60). -/
abbrev Descriptor := BitVec 64

end Sys2Proof
end

