-- ==== Sys2Proof/Syntax.lean ====
section
/-! DEFINITION. The five commands of USFP, one constructor per row of spec/opcode_table.json (30_encoding.md R61 to R66). -/

namespace Sys2Proof

/-- A command with its operands, every field at the width its format gives it (R67: unsigned, no extension, no scaling). -/
inductive Instr where
  /-- `RESOLVE rev, iface, serial` (R62, R97). -/
  | resolve (rev : Half) (iface : Byte) (serial : Bool)
  /-- `CONFIG speed, line, flow, xon, xoff` (R63, R132). -/
  | config (speed : BitVec 32) (dbits : BitVec 4) (parity : BitVec 2) (stop2 : Bool) (flow : BitVec 2) (xonc xoffc : Byte)
  /-- `BREAK on` (R64, R133). -/
  | brk (on : Bool)
  /-- `FRAME` (R65, R166). -/
  | frame
  /-- `PARSE len` (R66, R185). -/
  | parse (len : Half)
deriving DecidableEq, Repr

/-- Why a descriptor is illegal (R68). -/
inductive DecodeError where
  /-- OPC is 0x0 or in 0x6 .. 0xF. -/
  | reservedOpcode
  /-- A bit its format marks "must be 0" is 1. -/
  | mustBeZero
deriving DecidableEq, Repr

end Sys2Proof
end

