-- ==== Sys2Proof/Decode.lean ====
section
/-! DEFINITION. The decoder of command descriptors, total and rejecting by name (30_encoding.md R60 to R68), and the encoder
written from the same format tables. -/

namespace Sys2Proof

/-- `D[63:60]`, the opcode field (R60). -/
def opcOf (d : Descriptor) : BitVec 4 := d.extractLsb' 60 4

/-- `D[lo+w-1 : lo]`, a field of the descriptor as an unsigned number (R67). -/
def fieldOf (d : Descriptor) (lo w : Nat) : BitVec w := d.extractLsb' lo w

/-- One bit of the descriptor. -/
def bitOf (d : Descriptor) (i : Nat) : Bool := d.getLsbD i

/-- RESOLVE (R62): [59:25] zero, [24] SERIAL, [23:16] IFACE, [15:0] REV. -/
def decodeResolve (d : Descriptor) : Except DecodeError Instr :=
  if fieldOf d 25 35 = 0#35 then .ok (.resolve (fieldOf d 0 16) (fieldOf d 16 8) (bitOf d 24)) else .error .mustBeZero

/-- CONFIG (R63): [59:52] XOFFC, [51:44] XONC, [43:42] zero, [41:40] FLOW, [39] zero, [38] STOP2, [37:36] PARITY, [35:32] DBITS,
[31:0] SPEED. -/
def decodeConfig (d : Descriptor) : Except DecodeError Instr :=
  if fieldOf d 42 2 = 0#2 ∧ fieldOf d 39 1 = 0#1 then
    .ok (.config (fieldOf d 0 32) (fieldOf d 32 4) (fieldOf d 36 2) (bitOf d 38) (fieldOf d 40 2) (fieldOf d 44 8)
      (fieldOf d 52 8))
  else .error .mustBeZero

/-- BREAK (R64): [59:1] zero, [0] ON. -/
def decodeBrk (d : Descriptor) : Except DecodeError Instr :=
  if fieldOf d 1 59 = 0#59 then .ok (.brk (bitOf d 0)) else .error .mustBeZero

/-- FRAME (R65): [59:0] zero. -/
def decodeFrame (d : Descriptor) : Except DecodeError Instr :=
  if fieldOf d 0 60 = 0#60 then .ok .frame else .error .mustBeZero

/-- PARSE (R66): [59:16] zero, [15:0] LEN. -/
def decodeParse (d : Descriptor) : Except DecodeError Instr :=
  if fieldOf d 16 44 = 0#44 then .ok (.parse (fieldOf d 0 16)) else .error .mustBeZero

/-- The opcode map (R61); every other opcode is reserved (R68). -/
def decode (d : Descriptor) : Except DecodeError Instr :=
  if opcOf d = 0x1#4 then decodeResolve d
  else if opcOf d = 0x2#4 then decodeConfig d
  else if opcOf d = 0x3#4 then decodeBrk d
  else if opcOf d = 0x4#4 then decodeFrame d
  else if opcOf d = 0x5#4 then decodeParse d
  else .error .reservedOpcode

/-- A field's bits at `[lo+w-1 : lo]` of an otherwise zero descriptor. -/
def placeField {w : Nat} (v : BitVec w) (lo : Nat) : Descriptor := v.setWidth 64 <<< lo

/-- The descriptor of a command: each field of its format at its place, every other bit 0 (R62 to R66). -/
def encode : Instr → Descriptor
  | .resolve rev iface serial =>
      placeField 0x1#4 60 ||| placeField (BitVec.ofBool serial) 24 ||| placeField iface 16 ||| placeField rev 0
  | .config speed dbits parity stop2 flow xonc xoffc =>
      placeField 0x2#4 60 ||| placeField xoffc 52 ||| placeField xonc 44 ||| placeField flow 40
        ||| placeField (BitVec.ofBool stop2) 38 ||| placeField parity 36 ||| placeField dbits 32 ||| placeField speed 0
  | .brk on => placeField 0x3#4 60 ||| placeField (BitVec.ofBool on) 0
  | .frame => placeField 0x4#4 60
  | .parse len => placeField 0x5#4 60 ||| placeField len 0

/-- The instruction the decoder reads from an instruction whose bits are `w`, numbered as spec/opcode_table.json numbers them: one
descriptor of 64 bits, bits at and above `nbits` zero. -/
def decodeTableWord (nbits w : Nat) : Option Instr :=
  if nbits ≤ 64 then
    match decode (BitVec.ofNat 64 (w % 2 ^ nbits)) with
    | .ok i => some i
    | .error _ => none
  else none

end Sys2Proof
end

