-- ==== Sys2Proof/Config.lean ====
section
/-! DEFINITION. The parameters of an instance (00_scope.md R6), as plain data, and the free values of the bytes the spec leaves
unspecified (20_memory.md R52). The default values stand in Machine/Params.lean. -/

namespace Sys2Proof

/-- The eight generations G0 .. G7 (30_encoding.md R79). -/
inductive Gen where
  | g0 | g1 | g2 | g3 | g4 | g5 | g6 | g7
deriving DecidableEq, Repr

/-- The class of a generation, a closed set of variants (40_profile.md R91). -/
inductive GenClass where
  | fixed
  | early
  | later
deriving DecidableEq, Repr

/-- The capability flags HINDEX and CLK12M (30_encoding.md R79). -/
structure Caps where
  hindex : Bool
  clk12m : Bool
deriving DecidableEq, Repr

/-- A row of PROFILE_TABLE (40_profile.md R92). The generation of the row for code 0x0200 is never used: SERIAL decides (R93). -/
structure ProfileRow where
  code      : Half
  gen       : Gen
  caps      : Caps
  multiport : Bool
deriving DecidableEq, Repr

/-- INT1_FRAC_POLICY: what becomes of integral divisor 1 with a fraction other than 0 and 1/2 (41_baud.md R112, U7). -/
inductive FracPolicy where
  | halfOnly
  | anyNonzero
deriving DecidableEq, Repr

/-- The parameters of 00_scope.md R6. An instance carries them unchanged for its whole life. -/
structure Params where
  /-- OBUF_CAP, the fixed capacity of the outbound transfer buffer, in bytes. -/
  obufCap       : Nat
  /-- IBUF_CAP, the size of the inbound transfer buffer, in bytes. -/
  ibufCap       : Nat
  /-- IN_MAXPKT, the maximum packet size of the bulk-IN endpoint, header included. -/
  inMaxpkt      : Nat
  /-- PROFILE_TABLE, searched in order (R92). -/
  profileTable  : List ProfileRow
  /-- REV_THRESHOLD (R94). -/
  revThreshold  : Half
  /-- FALLBACK_GEN (R94), a divisor-based generation. -/
  fallbackGen   : Gen
  /-- FALLBACK_FLAGS (R94). -/
  fallbackCaps  : Caps
  /-- PORT_BASE (R96). -/
  portBase      : Byte
  /-- ROUNDOFF, sixteen signed entries (41_baud.md R108). -/
  roundoff      : List Int
  /-- INT1_FRAC_POLICY (41_baud.md R112). -/
  int1Policy    : FracPolicy
  /-- LSR_MASK[g], one byte per generation, G0 first (30_encoding.md R76). -/
  lsrMask       : List Byte
deriving DecidableEq, Repr

/-- The byte a host read of OBUF returns at an offset at or above OLEN, or at an offset no FRAME has written: unspecified, any
value (20_memory.md R52, U10). A FREE VALUE: arguments are the state's draw counter and the offset. Log 6, log 7. -/
opaque Config.freeObuf : Nat → Nat → Byte

/-- The byte PARSE reads from an offset of IBUF the host has not written since reset: unspecified, any value (20_memory.md R52,
70_reset_and_hazards.md R245). A FREE VALUE: arguments are the state's draw counter and the offset. Log 6. -/
opaque Config.freeIbuf : Nat → Nat → Byte

end Sys2Proof
end

