-- ==== Sys2Proof/Machine/Params.lean ====
section
/-! DEFINITION. The default values of the parameters (00_scope.md R6) and the constraints a parameter set must meet (R6,
40_profile.md R92 and R94, 93_implementation_defined.md U18). -/

namespace Sys2Proof

/-- The number of a generation (30_encoding.md R79). -/
def Gen.index : Gen → Nat
  | .g0 => 0
  | .g1 => 1
  | .g2 => 2
  | .g3 => 3
  | .g4 => 4
  | .g5 => 5
  | .g6 => 6
  | .g7 => 7

/-- The class of a generation (40_profile.md R91): FIXED = G0, EARLY = G1, LATER = G2 .. G7. -/
def Gen.cls : Gen → GenClass
  | .g0 => .fixed
  | .g1 => .early
  | .g2 => .later
  | .g3 => .later
  | .g4 => .later
  | .g5 => .later
  | .g6 => .later
  | .g7 => .later

/-- No capability flag. -/
def Caps.none : Caps := { hindex := false, clk12m := false }

/-- The code of the 0x0200 erratum (40_profile.md R93). -/
def erratumCode : Half := 0x0200#16

/-- PROFILE_TABLE, default value (40_profile.md R92, decision D10). The first row's generation is a placeholder: SERIAL decides
between G1 and G2 (R93, log 13). -/
def defaultProfileTable : List ProfileRow :=
  [ { code := 0x0200#16, gen := .g1, caps := { hindex := false, clk12m := false }, multiport := false },
    { code := 0x0400#16, gen := .g2, caps := { hindex := false, clk12m := false }, multiport := false },
    { code := 0x0500#16, gen := .g3, caps := { hindex := true, clk12m := false }, multiport := true },
    { code := 0x0600#16, gen := .g4, caps := { hindex := false, clk12m := false }, multiport := false },
    { code := 0x0700#16, gen := .g5, caps := { hindex := true, clk12m := true }, multiport := true },
    { code := 0x0800#16, gen := .g6, caps := { hindex := true, clk12m := true }, multiport := true },
    { code := 0x0900#16, gen := .g7, caps := { hindex := false, clk12m := true }, multiport := false } ]

/-- ROUNDOFF, default value (41_baud.md R108, decision D15). -/
def defaultRoundoff : List Int := [0, 1, 0, 1, 0, -1, 2, 1, 0, -1, -2, -3, 4, 3, 2, 1]

/-- LSR_MASK, default value: 0x9F for every generation (30_encoding.md R76, decision D24). -/
def defaultLsrMask : List Byte := List.replicate 8 0x9F#8

/-- The defaults of 00_scope.md R6 with the three OPEN capacities as arguments. -/
def Params.withCaps (obufCap ibufCap inMaxpkt : Nat) : Params :=
  { obufCap := obufCap
    ibufCap := ibufCap
    inMaxpkt := inMaxpkt
    profileTable := defaultProfileTable
    revThreshold := 0x0200#16
    fallbackGen := .g4
    fallbackCaps := Caps.none
    portBase := 0x01#8
    roundoff := defaultRoundoff
    int1Policy := .halfOnly
    lsrMask := defaultLsrMask }

/-- The parameters of `State.reset`. OBUF_CAP, IBUF_CAP and IN_MAXPKT are OPEN in the spec: 64, 128, 64 are this model's DESIGN
CHOICE (log 2), the values of program P1. -/
def Params.default : Params := Params.withCaps 64 128 64

/-- R6: 2 ≤ OBUF_CAP, IBUF_CAP, IN_MAXPKT ≤ 65535. -/
def capOk (n : Nat) : Bool := 2 ≤ n && n ≤ 65535

/-- A row's own constraints (R92): no row below REV_THRESHOLD, a G0 row is single-port without flags. -/
def rowOk (threshold : Half) (r : ProfileRow) : Bool :=
  threshold.toNat ≤ r.code.toNat && (r.gen != .g0 || (!r.multiport && !r.caps.hindex && !r.caps.clk12m))

/-- FALLBACK_GEN is a divisor-based generation (40_profile.md R94; G0 is reached only through the low fallback, R92). DEDUCED,
log 18. -/
def fallbackOk (g : Gen) : Bool := g != .g0

/-- The constraints of R6, R92 and R94 on a parameter set; U18 makes them part of the parameter's type. -/
def Params.wf (p : Params) : Bool :=
  capOk p.obufCap && capOk p.ibufCap && capOk p.inMaxpkt
    && p.profileTable.any (fun r => r.code == erratumCode)
    && p.profileTable.all (rowOk p.revThreshold)
    && fallbackOk p.fallbackGen
    && p.roundoff.length == 16
    && p.roundoff.all (fun r => decide (-3 ≤ r) && decide (r ≤ 4))
    && p.lsrMask.length == 8

/-- `LSR_MASK[g]` (30_encoding.md R76). A parameter set that meets `Params.wf` has an entry for every generation. -/
def Params.maskOf (p : Params) (g : Gen) : Byte := p.lsrMask.getD g.index 0x00#8

end Sys2Proof
end

