-- ==== Sys2Proof/Machine/State.lean ====
section
/-! DEFINITION. The state of one USFP instance as plain data (10_state.md R10 to R23), the host port's actions and replies
(20_memory.md R51), the reasons a step can stop, and the state after reset. -/

namespace Sys2Proof.Machine

/-- What the host may do between commands (20_memory.md R51, 70_reset_and_hazards.md R240). -/
inductive HostAction where
  /-- Issue a command descriptor. -/
  | issue (d : Descriptor)
  /-- Append bytes to the back of TXQ, in the order given. -/
  | appendTx (bytes : List Byte)
  /-- Write `IBUF[offset]`. -/
  | writeIbuf (offset : Nat) (b : Byte)
  /-- Read `OBUF[offset]`. -/
  | readObuf (offset : Nat)
  /-- Consume `count` bytes from the front of RXQ. -/
  | consumeRx (count : Nat)
  /-- Read register `number` (10_state.md R13). -/
  | readReg (number : Nat)
  /-- Assert reset (R240). -/
  | reset
deriving DecidableEq, Repr

/-- The completion status codes (60_exceptions.md R210). -/
inductive Status where
  | ok
  | errUnreachableBaud
  | shortBuffer
  | errIllegalCmd
  | errSequence
  | errBadOperand
deriving DecidableEq, Repr

/-- A completion: the status and the four notification flags (30_encoding.md R78, 60_exceptions.md R216). -/
structure Completion where
  status   : Status
  warn     : Bool := false
  submit   : Bool := false
  resubmit : Bool := false
  notify   : Bool := false
deriving DecidableEq, Repr

/-- What a step hands to the host. -/
inductive Reply where
  /-- The completion record `C[15:0]` of a command (R78). -/
  | completion (record : Half)
  /-- A register's value, in the low end (10_state.md R13). -/
  | register (value : Half)
  /-- A byte of OBUF. -/
  | byte (b : Byte)
  /-- Bytes consumed from RXQ, oldest first. -/
  | bytes (bs : List Byte)
deriving DecidableEq, Repr

/-- The state of one instance. The registers are those of 10_state.md R14 to R18 by field, the buffers and queues those of R20 and
R21; the last four fields are the model's own (log 1, log 3, log 4, log 6). -/
structure State where
  /-- `PSTAT.PVALID`, register 0 bit 0. -/
  pvalid  : Bool
  /-- `PSTAT.WARN`, register 0 bit 1. -/
  warn    : Bool
  /-- `GEN`, register 1. -/
  gen     : Gen
  /-- `FLAGS.HINDEX`, register 2 bit 0. -/
  hindex  : Bool
  /-- `FLAGS.CLK12M`, register 2 bit 1. -/
  clk12m  : Bool
  /-- `HDRLEN`, register 3. -/
  hdrlen  : BitVec 1
  /-- `PORTNO`, register 4. -/
  portno  : Byte
  /-- `BAUD_LO`, register 5. -/
  baudLo  : Half
  /-- `BAUD_HI`, register 6. -/
  baudHi  : Half
  /-- `LCW`, register 7. -/
  lcw     : Half
  /-- `FLOW_SEL`, register 8. -/
  flowSel : Byte
  /-- `XON`, register 9. -/
  xon     : Byte
  /-- `XOFF`, register 10. -/
  xoff    : Byte
  /-- `WSTAT.WVALID`, register 11. -/
  wvalid  : Bool
  /-- `LAST_LCW`, register 12. -/
  lastLcw : Half
  /-- `ST_MODEM`, register 13. -/
  stModem : BitVec 4
  /-- `ST_LINE`, register 14. -/
  stLine  : Byte
  /-- `SSTAT.SVALID`, register 15. -/
  svalid  : Bool
  /-- `OLEN`, register 16. -/
  olen    : Half
  /-- OBUF: the bytes FRAME has written since reset, by offset. An offset not listed holds an unspecified byte (R52). -/
  obuf    : List Host.Cell
  /-- IBUF: the bytes the host has written since reset, by offset. An offset not listed holds an unspecified byte (R52). -/
  ibuf    : List Host.Cell
  /-- TXQ, the pending output stream, oldest byte first. -/
  txq     : List Byte
  /-- RXQ, the payload queue, oldest byte first. -/
  rxq     : List Byte
  /-- The instance's parameters (00_scope.md R6): configuration, which no step writes. -/
  cfg     : Params
  /-- The model's own: the host's actions still to come, oldest first. -/
  inbox   : List HostAction
  /-- The model's own: what the last step handed to the host. -/
  reply   : Option Reply
  /-- The model's own: counter that selects fresh free values for unspecified bytes. -/
  draws   : Nat
deriving DecidableEq, Repr

/-- Why a step stops with a fault. No command raises one: each is a host access the spec's host port does not have. -/
inductive Fault where
  /-- The host reads `OBUF[offset]` with offset ≥ OBUF_CAP (20_memory.md R40, R51: no such byte). Raised by `hostReadObuf`. Safe. -/
  | obufOffset
  /-- The host writes `IBUF[offset]` with offset ≥ IBUF_CAP (20_memory.md R40, R51: no such byte). Raised by `hostWriteIbuf`.
  Safe. -/
  | ibufOffset
  /-- The host consumes more bytes than RXQ holds (20_memory.md R51 gives bytes that are there). Raised by `hostConsumeRx`. Safe. -/
  | rxqUnderflow
deriving DecidableEq, Repr

/-- Why a step is refused. No command's meaning raises one. -/
inductive Refusal where
  /-- A command without a meaning. No arm of `exec` uses it. Safe. -/
  | notModelled (mnemonic : String)
  /-- The host reads a register number above 16: outside the model (10_state.md R13, U12). Raised by `hostReadReg`. Safe. -/
  | noSuchRegister
  /-- The parameter set breaks the constraints of R6, R92 and R94: outside the model (U18). Raised by `step`. Safe. -/
  | badParameters
deriving DecidableEq, Repr

/-- The state after reset of an instance with parameters `p` (10_state.md R23, 70_reset_and_hazards.md R241): every register 0,
both queues empty, buffer bytes unspecified, no host action at hand. -/
def State.resetWith (p : Params) : State :=
  { pvalid := false, warn := false, gen := .g0, hindex := false, clk12m := false, hdrlen := 0#1, portno := 0#8
    baudLo := 0#16, baudHi := 0#16, lcw := 0#16, flowSel := 0#8, xon := 0#8, xoff := 0#8, wvalid := false
    lastLcw := 0#16, stModem := 0#4, stLine := 0#8, svalid := false, olen := 0#16
    obuf := [], ibuf := [], txq := [], rxq := []
    cfg := p, inbox := [], reply := none, draws := 0 }

/-- The machine right after reset, with the parameters of `Params.default` (log 2). -/
def State.reset : State := State.resetWith Params.default

end Sys2Proof.Machine
end

