-- ==== Sys2Proof/Machine/Flags.lean ====
section
/-! DEFINITION. The flag-like computations of the spec: completion codes and record (30_encoding.md R78, 60_exceptions.md R210),
modem bits (30_encoding.md R76, R77; 44_parser.md R183), and the status tracker's change test (44_parser.md R184). -/

namespace Sys2Proof.Machine

/-- The number of a status code (R210). -/
def Status.code : Status → Byte
  | .ok => 0x00#8
  | .errUnreachableBaud => 0x01#8
  | .shortBuffer => 0x02#8
  | .errIllegalCmd => 0x10#8
  | .errSequence => 0x11#8
  | .errBadOperand => 0x12#8

/-- A flag at bit `i` of a 16-bit value. -/
def flagAt (i : Nat) (b : Bool) : Half := (BitVec.ofBool b).setWidth 16 <<< i

/-- The completion record `C[15:0]` (R78): [15:12] zero, [11] NOTIFY, [10] RESUBMIT, [9] SUBMIT, [8] WARN, [7:0] STATUS. -/
def Completion.record (c : Completion) : Half :=
  flagAt 11 c.notify ||| flagAt 10 c.resubmit ||| flagAt 9 c.submit ||| flagAt 8 c.warn ||| c.status.code.setWidth 16

/-- CTS, bit 4 of the modem status byte (R76). -/
def ctsMask : Byte := 0x10#8

/-- DSR, bit 5 of the modem status byte (R76). -/
def dsrMask : Byte := 0x20#8

/-- RI, bit 6 of the modem status byte (R76). -/
def riMask : Byte := 0x40#8

/-- DCD, bit 7 of the modem status byte (R76). -/
def dcdMask : Byte := 0x80#8

/-- `(h & mask) != 0`. -/
def anyBit (h mask : Byte) : Bool := h &&& mask != 0#8

/-- ModemBits (R183): CTS, DSR, DCD from the last header, RI from the last header or the accumulator; positions of R77. -/
def modemBits (lastH0 : Byte) (riAcc : Bool) : BitVec 4 :=
  (if anyBit lastH0 ctsMask then 0b0001#4 else 0#4)
    ||| (if anyBit lastH0 dsrMask then 0b0010#4 else 0#4)
    ||| (if anyBit lastH0 riMask || riAcc then 0b0100#4 else 0#4)
    ||| (if anyBit lastH0 dcdMask then 0b1000#4 else 0#4)

/-- Whether StatusUpdate notifies (R184): first call since reset, or either field differs. -/
def statusChanged (svalid : Bool) (oldModem newModem : BitVec 4) (oldLine newLine : Byte) : Bool :=
  !svalid || newModem != oldModem || newLine != oldLine

end Sys2Proof.Machine
end

