-- ==== Sys2Proof/Machine/Ranges.lean ====
section
/-! DEFINITION. The operand ranges whose breach is ERR_BAD_OPERAND (30_encoding.md R68, 60_exceptions.md R213). -/

namespace Sys2Proof

/-- The line settings CONFIG accepts: DBITS in 5..8, PARITY and FLOW not 3 (30_encoding.md R63, R213). -/
def lineOperandsOk (dbits : BitVec 4) (parity flow : BitVec 2) : Bool :=
  decide (5 ≤ dbits.toNat) && decide (dbits.toNat ≤ 8) && parity != 3#2 && flow != 3#2

/-- The lengths PARSE accepts: LEN ≤ IBUF_CAP (30_encoding.md R66, R213). -/
def lenOperandOk (p : Params) (len : Half) : Bool := decide (len.toNat ≤ p.ibufCap)

end Sys2Proof
end

