-- ==== Sys2Proof/Machine/Operands.lean ====
section
/-! DEFINITION. The operand forms of CONFIG: PackLine and PackFlow (42_lineconfig.md R130, R131) over the layouts of 30_encoding.md
R73 and R74, and the break bit of LAST_LCW (42_lineconfig.md R133). -/

namespace Sys2Proof.Machine

/-- The break bit of a line-control value, bit 14 (R73). -/
def breakBit : Half := 0x4000#16

/-- PackLine (R130): the data-bits count in [7:0], parity 0x0100 odd or 0x0200 even, 0x1000 for two stop bits, break 0. -/
def packLine (dbits : BitVec 4) (parity : BitVec 2) (stop2 : Bool) : Half :=
  dbits.setWidth 16
    ||| (if parity = 1#2 then 0x0100#16 else 0#16)
    ||| (if parity = 2#2 then 0x0200#16 else 0#16)
    ||| (if stop2 then 0x1000#16 else 0#16)

/-- The flow selector and the characters that go with it. -/
structure FlowWire where
  sel  : Byte
  xon  : Byte
  xoff : Byte
deriving DecidableEq, Repr

/-- PackFlow (R131): 0x01 hardware handshake, 0x04 software handshake carrying the characters, 0x00 none. -/
def packFlow (flow : BitVec 2) (xonc xoffc : Byte) : FlowWire :=
  if flow = 1#2 then { sel := 0x01#8, xon := 0#8, xoff := 0#8 }
  else if flow = 2#2 then { sel := 0x04#8, xon := xonc, xoff := xoffc }
  else { sel := 0x00#8, xon := 0#8, xoff := 0#8 }

/-- BREAK's change of a line-control value (R133): bit 14 set or cleared, no other bit changed. -/
def withBreak (on : Bool) (v : Half) : Half := if on then v ||| breakBit else v &&& ~~~breakBit

end Sys2Proof.Machine
end

