-- ==== Sys2Proof/Machine/Ops.lean ====
section
/-! DEFINITION. The named operations over buffers, queues and registers (00_scope.md section 5, 20_memory.md R40 to R44), and the
two ways a command ends: `raise` and `complete` (60_exceptions.md R214). -/

namespace Sys2Proof.Machine

/-- The byte listed at an offset; none where nothing has been written since reset (R52). -/
def Memory.read? : List Host.Cell → Nat → Option Byte
  | [], _ => none
  | (a, b) :: m, x => if a = x then some b else Memory.read? m x

/-- Write one byte, keeping offsets strictly rising. Nothing is ever dropped: an unlisted offset reads as no value. -/
def Memory.write : List Host.Cell → Nat → Byte → List Host.Cell
  | [], x, v => [(x, v)]
  | (a, b) :: m, x, v =>
      if x < a then (x, v) :: (a, b) :: m else if x = a then (a, v) :: m else (a, b) :: Memory.write m x v

/-- Write consecutive bytes from an offset, in increasing order (R41). -/
def Memory.writeRun : List Host.Cell → Nat → List Byte → List Host.Cell
  | m, _, [] => m
  | m, x, b :: bs => Memory.writeRun (Memory.write m x b) (x + 1) bs

/-- The canonical form: offsets strictly rising. No entry equals what an unlisted offset reads as, since that is no value. -/
def Memory.wf : List Host.Cell → Bool
  | [] => true
  | [_] => true
  | (a, _) :: (a', b') :: m => a < a' && Memory.wf ((a', b') :: m)

/-- Every listed offset is below the buffer's capacity (R40). -/
def Memory.below (cap : Nat) (m : List Host.Cell) : Bool := m.all (fun c => c.1 < cap)

/-- `MemRead(IBUF, offset, 1)`: the byte the host wrote, or a free value where it wrote none (R52). -/
def readIbuf (s : State) (offset : Nat) : Byte := (Memory.read? s.ibuf offset).getD (Config.freeIbuf s.draws offset)

/-- A host read of `OBUF[offset]` (R51, R52): below OLEN the byte FRAME left there, at or above OLEN a free value. -/
def readObuf (s : State) (offset : Nat) : Byte :=
  if offset < s.olen.toNat then (Memory.read? s.obuf offset).getD (Config.freeObuf s.draws offset)
  else Config.freeObuf s.draws offset

/-- The DeviceProfile registers, written together by RESOLVE (10_state.md R14, 40_profile.md R97). -/
def State.setProfile (s : State) (g : Gen) (caps : Caps) (hdrlen : BitVec 1) (portno : Byte) (warn : Bool) : State :=
  { s with gen := g, hindex := caps.hindex, clk12m := caps.clk12m, hdrlen := hdrlen, portno := portno, warn := warn, pvalid := true }

/-- The WireConfig registers and LAST_LCW, written together by CONFIG (10_state.md R15, R16, 42_lineconfig.md R132). -/
def State.setWire (s : State) (lo hi lcw : Half) (f : FlowWire) : State :=
  { s with baudLo := lo, baudHi := hi, lcw := lcw, flowSel := f.sel, xon := f.xon, xoff := f.xoff, wvalid := true, lastLcw := lcw }

/-- LAST_LCW alone (10_state.md R16). -/
def State.setLastLcw (s : State) (v : Half) : State := { s with lastLcw := v }

/-- The StatusTracker registers (10_state.md R17). -/
def State.setTracker (s : State) (modem : BitVec 4) (line : Byte) : State :=
  { s with stModem := modem, stLine := line, svalid := true }

/-- What FRAME leaves: OBUF, the rest of TXQ, and OLEN truncated to its 16 bits (10_state.md R18). -/
def State.setFramed (s : State) (obuf : List Host.Cell) (txq : List Byte) (used : Nat) : State :=
  { s with obuf := obuf, txq := txq, olen := BitVec.ofNat 16 used }

/-- `push(RXQ, bytes)`. -/
def State.pushRx (s : State) (bytes : List Byte) : State := { s with rxq := s.rxq ++ bytes }

/-- The next read of an unspecified byte is a fresh free value (log 6). -/
def State.redraw (s : State) : State := { s with draws := s.draws + 1 }

/-- Hand a reply to the host (log 4). -/
def State.answer (s : State) (r : Reply) : State := { s with reply := some r }

/-- A step begins: the oldest host action leaves the inbox and the last reply is gone, since a completion's flags are valid for that
completion only (60_exceptions.md R216). -/
def State.advance (s : State) (rest : List HostAction) : State := { s with inbox := rest, reply := none }

/-- `complete(S, flags)`: the command ends with its completion record; the state changes made so far stand. -/
def complete (c : Completion) (s : State) : Host.Outcome State Fault Refusal := .next (s.answer (.completion c.record))

/-- `raise Code`: the one shared way an error is taken. No register, buffer or queue changes, all flags are 0, and control goes
back to the host with the completion record (R214). There is no handler and so no return from one (R217). -/
def raise (e : Status) (s : State) : Host.Outcome State Fault Refusal := complete { status := e } s

end Sys2Proof.Machine
end

