-- ==== Sys2Proof/Machine/Framer.lean ====
section
/-! DEFINITION. OutputFramer: the command FRAME (43_framer.md R160 to R166). -/

namespace Sys2Proof.Machine

/-- The work of one FRAME: bytes of OBUF used, OBUF, and the bytes still pending. -/
structure Framed where
  used : Nat
  obuf : List Host.Cell
  txq  : List Byte
deriving DecidableEq, Repr

/-- FrameHeaderless (R161): as many pending bytes as fit, from offset 0. -/
def frameHeaderless (cap : Nat) (obuf : List Host.Cell) (txq : List Byte) : Framed :=
  { used := min txq.length cap
    obuf := Memory.writeRun obuf 0 (txq.take (min txq.length cap))
    txq := txq.drop (min txq.length cap) }

/-- The chunk header (30_encoding.md R75): `(CLEN << 2) | PORTNO[1:0]`. -/
def chunkHeader (k : Nat) (portno : Byte) : Byte := (BitVec.ofNat 8 k <<< 2) ||| (portno &&& 0x03#8)

/-- The payload length of the next chunk (R162): `min(63, len(TXQ), OBUF_CAP - used - 1)`. -/
def chunkLength (cap used pending : Nat) : Nat := min 63 (min pending (cap - used - 1))

/-- One round of the chunk loop (R162): the header at `used`, the payload after it, the payload taken from TXQ. -/
def addChunk (cap : Nat) (portno : Byte) (f : Framed) : Framed :=
  { used := f.used + 1 + chunkLength cap f.used f.txq.length
    obuf := Memory.writeRun f.obuf f.used
      (chunkHeader (chunkLength cap f.used f.txq.length) portno :: f.txq.take (chunkLength cap f.used f.txq.length))
    txq := f.txq.drop (chunkLength cap f.used f.txq.length) }

/-- FrameHeadered (R162), the chunk loop. It ends when less than 2 bytes of space or no pending byte is left; `fuel` bounds it
(R165: at most OBUF_CAP / 2 rounds; log 12). -/
def frameHeadered (cap : Nat) (portno : Byte) : Nat → Framed → Framed
  | 0, f => f
  | fuel + 1, f =>
      if 2 ≤ cap - f.used ∧ 0 < f.txq.length then frameHeadered cap portno fuel (addChunk cap portno f) else f

/-- The discipline HDRLEN selects (R160). -/
def framed (s : State) : Framed :=
  if s.hdrlen = 0#1 then frameHeaderless s.cfg.obufCap s.obuf s.txq
  else frameHeadered s.cfg.obufCap s.portno s.cfg.obufCap { used := 0, obuf := s.obuf, txq := s.txq }

/-- FRAME (R166). -/
def execFrame (s : State) : Host.Outcome State Fault Refusal :=
  if !s.pvalid then raise .errSequence s
  else
    let f := framed s
    complete { status := .ok, submit := f.used != 0 } (s.setFramed f.obuf f.txq f.used).redraw

end Sys2Proof.Machine
end

