-- ==== Sys2Proof/Machine/Baud.lean ====
section
/-! DEFINITION. BaudRateEncoder: the functions EncodeBaud and DecodeBaud (41_baud.md R100 to R118) over naturals with floor division
(R115). -/

namespace Sys2Proof.Machine

/-- The ten fixed speeds, ascending (00_scope.md R7, 30_encoding.md R71). -/
def fixedSpeeds : List Nat := [300, 600, 1200, 2400, 4800, 9600, 19200, 38400, 57600, 115200]

/-- FRACTAB, indexed by the number of eighths (30_encoding.md R72). -/
def fracTab : List Nat := [0, 3, 2, 4, 1, 5, 6, 7]

/-- `FRACTAB[f]`: the fraction code of a fraction index below 8. -/
def fracCode (f : Nat) : Nat := fracTab.getD f 0

/-- The index f with `FRACTAB[f]` = code, for a code below 8 (R72: a permutation). -/
def fracIndex (code : Nat) : Nat := fracTab.idxOf code

/-- EncodeBaudFixed (R101): the zero-based index of the exact speed, high half 0. -/
def encodeBaudFixed (speed : Nat) : Option (Half × Half) :=
  if speed ∈ fixedSpeeds then some (BitVec.ofNat 16 (fixedSpeeds.idxOf speed), 0#16) else none

/-- Step 1, the fast-clock flag (R102). -/
def fastClock (clk12m : Bool) (speed : Nat) : Bool := clk12m && decide (1200 ≤ speed)

/-- Step 1, the reference clock (R102). -/
def clockOf (fast : Bool) : Nat := if fast then 12000000 else 3000000

/-- Step 2, reachability (R103): both bounds inclusive. -/
def speedInRange (clk speed : Nat) : Bool := decide (clk / 16384 ≤ speed) && decide (speed ≤ clk)

/-- Step 4 (R105 to R107), an if and else-if chain (C9): low nibble 1 drops to 0; EARLY adds the signed ROUNDOFF entry; LATER
adds 1. -/
def roundDivisor (roundoff : List Int) (cls : GenClass) (d : Nat) : Nat :=
  if d % 16 = 1 then d - 1
  else if cls = .early then ((d : Int) + roundoff.getD (d % 16) 0).toNat
  else d + 1

/-- Steps 3 to 5 (R104 to R109): the divisor in eighths. -/
def divisorEighths (roundoff : List Int) (cls : GenClass) (clk speed : Nat) : Nat :=
  roundDivisor roundoff cls (clk * 16 / speed) / 2

/-- Step 6 (R110): the achieved speed within 3 % of the target, both bounds floor divisions, both comparisons inclusive. -/
def withinTolerance (hw speed : Nat) : Bool := decide (speed * 100 / 103 ≤ hw) && decide (hw ≤ speed * 100 / 97)

/-- Step 7 (R111, R112): integral part and fraction index, with the re-encodings of integral 1. -/
def repack (policy : FracPolicy) (d8 : Nat) : Nat × Nat :=
  if d8 / 8 = 1 then
    if d8 % 8 = 0 then (0, 0)
    else if d8 % 8 = 4 ∨ policy = .anyNonzero then (1, 0)
    else (1, d8 % 8)
  else (d8 / 8, d8 % 8)

/-- The packed divisor P (30_encoding.md R70): INTEG, FCODE at [16:14], FAST at [17], composed by OR without masking (R113,
R116). -/
def packDivisor (integ frac : Nat) (fast : Bool) : BitVec 32 :=
  BitVec.ofNat 32 integ ||| (BitVec.ofNat 32 (fracCode frac) <<< 14) ||| ((if fast then 1#32 else 0#32) <<< 17)

/-- Step 8 (R113): the halves, the high one shifted left by 8 with HINDEX. -/
def splitDivisor (hindex : Bool) (P : BitVec 32) : Half × Half :=
  (P.extractLsb' 0 16, if hindex then P.extractLsb' 16 16 <<< 8 else P.extractLsb' 16 16)

/-- The fractional-divisor algorithm, steps 1 to 8 (R102 to R113). -/
def encodeBaudFractional (p : Params) (cls : GenClass) (hindex clk12m : Bool) (speed : Nat) : Option (Half × Half) :=
  let fast := fastClock clk12m speed
  let clk := clockOf fast
  if speedInRange clk speed then
    let d8 := divisorEighths p.roundoff cls clk speed
    if withinTolerance (clk * 8 / d8) speed then
      let r := repack p.int1Policy d8
      some (splitDivisor hindex (packDivisor r.1 r.2 fast))
    else none
  else none

/-- EncodeBaud (R100, R114): the pair of halves, or none for ERR_UNREACHABLE_BAUD. -/
def encodeBaud (p : Params) (cls : GenClass) (hindex clk12m : Bool) (speed : Nat) : Option (Half × Half) :=
  if cls = .fixed then encodeBaudFixed speed else encodeBaudFractional p cls hindex clk12m speed

/-- The divisor in eighths a packed pair stands for (R117): "0.0" means 1.0, "1.0" means 1.5. None for integral 0 with another
fraction code, to which DecodeBaud gives no meaning (U16). -/
def decodedEighths (integ code : Nat) : Option Nat :=
  if integ = 0 then (if code = 0 then some 8 else none)
  else if integ = 1 ∧ code = 0 then some 12
  else some (integ * 8 + fracIndex code)

/-- DecodeBaud (R117), for the divisor classes. -/
def decodeBaud (hindex : Bool) (low high : Half) : Option Nat :=
  let P : BitVec 32 := ((if hindex then high >>> 8 else high).setWidth 32 <<< 16) ||| low.setWidth 32
  match decodedEighths (P.extractLsb' 0 14).toNat (P.extractLsb' 14 3).toNat with
  | some e8 => some (clockOf (P.getLsbD 17) * 8 / e8)
  | none => none

/-- The fixed table's decode: `decode(i, 0)` is the speed at index i (R117). -/
def decodeBaudFixed (low : Half) : Option Nat := fixedSpeeds[low.toNat]?

end Sys2Proof.Machine
end

