-- ==== Sys2Proof/Machine/LineConfig.lean ====
section
/-! DEFINITION. LineConfigTranslator: the commands CONFIG and BREAK (42_lineconfig.md R130 to R134). -/

namespace Sys2Proof.Machine

/-- CONFIG (R132): all WireConfig registers and LAST_LCW together, or an error and nothing. Check order: R215. -/
def execConfig (speed : BitVec 32) (dbits : BitVec 4) (parity : BitVec 2) (stop2 : Bool) (flow : BitVec 2) (xonc xoffc : Byte)
    (s : State) : Host.Outcome State Fault Refusal :=
  if !s.pvalid then raise .errSequence s
  else if !lineOperandsOk dbits parity flow then raise .errBadOperand s
  else
    match encodeBaud s.cfg s.gen.cls s.hindex s.clk12m speed.toNat with
    | none => raise .errUnreachableBaud s
    | some (lo, hi) =>
        complete { status := .ok } (s.setWire lo hi (packLine dbits parity stop2) (packFlow flow xonc xoffc))

/-- BREAK (R133): bit 14 of LAST_LCW set or cleared; the WireConfig registers stay. -/
def execBrk (on : Bool) (s : State) : Host.Outcome State Fault Refusal :=
  if !s.pvalid then raise .errSequence s
  else complete { status := .ok } (s.setLastLcw (withBreak on s.lastLcw))

end Sys2Proof.Machine
end

