-- ==== Sys2Proof/Machine/Parser.lean ====
section
/-! DEFINITION. InputParser and StatusTracker: the command PARSE (44_parser.md R180 to R188). -/

namespace Sys2Proof.Machine

/-- What the packet loop carries (R182): the accumulators, the last header's modem byte, and the payload forwarded so far. -/
structure ParseAcc where
  lsrAcc  : Byte
  riAcc   : Bool
  lastH0  : Byte
  payload : List Byte
deriving DecidableEq, Repr

/-- The accumulators before the first packet. -/
def ParseAcc.start : ParseAcc := { lsrAcc := 0#8, riAcc := false, lastH0 := 0#8, payload := [] }

/-- The payload bytes of the packet whose header ends before `off`, in increasing offset order. -/
def payloadAt (s : State) (off k : Nat) : List Byte := (List.range k).map (fun i => readIbuf s (off + i))

/-- One packet (R182): header at `off` and `off + 1`, then `k` payload bytes. -/
def parsePacket (s : State) (off k : Nat) (acc : ParseAcc) : ParseAcc :=
  { lsrAcc := acc.lsrAcc ||| (readIbuf s (off + 1) &&& s.cfg.maskOf s.gen)
    riAcc := acc.riAcc || anyBit (readIbuf s off) riMask
    lastH0 := readIbuf s off
    payload := acc.payload ++ payloadAt s (off + 2) k }

/-- The payload length of a packet with `rem` bytes left after its header (R182): `min(rem, IN_MAXPKT - 2)`. -/
def payloadLength (s : State) (rem : Nat) : Nat := min rem (s.cfg.inMaxpkt - 2)

/-- ParseLoop (R182): packets while at least 2 bytes remain; `fuel` bounds it (R187: at most LEN / 2 rounds; log 12). -/
def parseLoop (s : State) : Nat → Nat → Nat → ParseAcc → ParseAcc
  | 0, _, _, acc => acc
  | fuel + 1, off, rem, acc =>
      if 2 ≤ rem then
        let k := payloadLength s (rem - 2)
        parseLoop s fuel (off + 2 + k) (rem - 2 - k) (parsePacket s off k acc)
      else acc

/-- The whole buffer `IBUF[0 .. len-1]`. -/
def parsed (s : State) (len : Nat) : ParseAcc := parseLoop s len 0 len ParseAcc.start

/-- The modem bits of the whole buffer (R183). -/
def parsedModem (s : State) (len : Nat) : BitVec 4 := modemBits (parsed s len).lastH0 (parsed s len).riAcc

/-- StatusUpdate (R184): the tracker's registers, replaced when the status changed. -/
def trackStatus (modem : BitVec 4) (line : Byte) (s : State) : State :=
  if statusChanged s.svalid s.stModem modem s.stLine line then s.setTracker modem line else s

/-- PARSE (R185). Check order: R215. -/
def execParse (len : Half) (s : State) : Host.Outcome State Fault Refusal :=
  if !s.pvalid then raise .errSequence s
  else if !lenOperandOk s.cfg len then raise .errBadOperand s
  else if len.toNat < 2 then complete { status := .shortBuffer, resubmit := true } s
  else
    let a := parsed s len.toNat
    let m := parsedModem s len.toNat
    complete { status := .ok, notify := statusChanged s.svalid s.stModem m s.stLine a.lsrAcc }
      (trackStatus m a.lsrAcc (s.pushRx a.payload)).redraw

end Sys2Proof.Machine
end

