-- ==== Sys2Proof/Machine/Profile.lean ====
section
/-! DEFINITION. DeviceProfile resolution: the command RESOLVE (40_profile.md R90 to R98). -/

namespace Sys2Proof.Machine

/-- What a revision code resolves to, before the port number. -/
structure Resolution where
  gen   : Gen
  caps  : Caps
  multi : Bool
  warn  : Bool
deriving DecidableEq, Repr

/-- The generation of a row's code: SERIAL decides between G1 and G2 for code 0x0200 alone (R93, C5). -/
def rowGen (r : ProfileRow) (rev : Half) (serial : Bool) : Gen :=
  if rev = erratumCode then (if serial then .g1 else .g2) else r.gen

/-- The first row with the code (R92), else the low or the high fallback (R94). -/
def resolution (p : Params) (rev : Half) (serial : Bool) : Resolution :=
  match p.profileTable.find? (fun r => r.code == rev) with
  | some r => { gen := rowGen r rev serial, caps := r.caps, multi := r.multiport, warn := false }
  | none =>
      if rev.toNat < p.revThreshold.toNat then { gen := .g0, caps := Caps.none, multi := false, warn := false }
      else { gen := p.fallbackGen, caps := p.fallbackCaps, multi := false, warn := true }

/-- Header length (R95): 1 for G0 alone. -/
def headerLength (g : Gen) : BitVec 1 := if g = .g0 then 1#1 else 0#1

/-- Port number (R96): 0, or PORT_BASE + IFACE mod 256 on a multi-port chip. -/
def portNumber (p : Params) (multi : Bool) (iface : Byte) : Byte := if multi then p.portBase + iface else 0#8

/-- RESOLVE (R97). -/
def execResolve (rev : Half) (iface : Byte) (serial : Bool) (s : State) : Host.Outcome State Fault Refusal :=
  if s.pvalid then raise .errSequence s
  else
    let r := resolution s.cfg rev serial
    complete { status := .ok, warn := r.warn }
      (s.setProfile r.gen r.caps (headerLength r.gen) (portNumber s.cfg r.multi iface) r.warn)

end Sys2Proof.Machine
end

