-- ==== Sys2Proof/Machine/Dispatch.lean ====
section
/-! DEFINITION. One arm per command, each a direct call of its meaning. -/

namespace Sys2Proof.Machine

def exec (i : Instr) (s : State) : Host.Outcome State Fault Refusal :=
  match i with
  | .resolve rev iface serial => Sys2Proof.Machine.execResolve rev iface serial s
  | .config speed dbits parity stop2 flow xonc xoffc => Sys2Proof.Machine.execConfig speed dbits parity stop2 flow xonc xoffc s
  | .brk on => Sys2Proof.Machine.execBrk on s
  | .frame => Sys2Proof.Machine.execFrame s
  | .parse len => Sys2Proof.Machine.execParse len s

end Sys2Proof.Machine
end

