-- ==== Sys2Proof/Machine/HostPort.lean ====
section
/-! DEFINITION. The host port (20_memory.md R51): what each host action does, the register read (10_state.md R13), the issue of a
descriptor (30_encoding.md R68), and reset (70_reset_and_hazards.md R240). -/

namespace Sys2Proof.Machine

/-- The value of register `n` (R13 to R18): the register's bits in the low end, the rest zero; none above 16. -/
def registerValue (s : State) (n : Nat) : Option Half :=
  match n with
  | 0 => some (flagAt 0 s.pvalid ||| flagAt 1 s.warn)
  | 1 => some (BitVec.ofNat 16 s.gen.index)
  | 2 => some (flagAt 0 s.hindex ||| flagAt 1 s.clk12m)
  | 3 => some (s.hdrlen.setWidth 16)
  | 4 => some (s.portno.setWidth 16)
  | 5 => some s.baudLo
  | 6 => some s.baudHi
  | 7 => some s.lcw
  | 8 => some (s.flowSel.setWidth 16)
  | 9 => some (s.xon.setWidth 16)
  | 10 => some (s.xoff.setWidth 16)
  | 11 => some (flagAt 0 s.wvalid)
  | 12 => some s.lastLcw
  | 13 => some (s.stModem.setWidth 16)
  | 14 => some (s.stLine.setWidth 16)
  | 15 => some (flagAt 0 s.svalid)
  | 16 => some s.olen
  | _ => none

/-- Issue a descriptor: an illegal one completes with ERR_ILLEGAL_CMD before any other check (R68, R215). -/
def hostIssue (d : Descriptor) (s : State) : Host.Outcome State Fault Refusal :=
  match decode d with
  | .ok i => exec i s
  | .error _ => raise .errIllegalCmd s

/-- Append bytes at the back of TXQ, in the order given. -/
def hostAppendTx (bytes : List Byte) (s : State) : Host.Outcome State Fault Refusal :=
  .next { s with txq := s.txq ++ bytes }

/-- Write `IBUF[offset]`, offset < IBUF_CAP. -/
def hostWriteIbuf (offset : Nat) (b : Byte) (s : State) : Host.Outcome State Fault Refusal :=
  if offset < s.cfg.ibufCap then .next { s with ibuf := Memory.write s.ibuf offset b } else .fault .ibufOffset

/-- Read `OBUF[offset]`, offset < OBUF_CAP: no side effect. -/
def hostReadObuf (offset : Nat) (s : State) : Host.Outcome State Fault Refusal :=
  if offset < s.cfg.obufCap then .next (s.answer (.byte (readObuf s offset))) else .fault .obufOffset

/-- Consume `count` bytes from the front of RXQ. -/
def hostConsumeRx (count : Nat) (s : State) : Host.Outcome State Fault Refusal :=
  if count ≤ s.rxq.length then .next ({ s with rxq := s.rxq.drop count }.answer (.bytes (s.rxq.take count)))
  else .fault .rxqUnderflow

/-- Read register `number`: no side effect; above 16 outside the model (R13, U12). -/
def hostReadReg (number : Nat) (s : State) : Host.Outcome State Fault Refusal :=
  match registerValue s number with
  | some v => .next (s.answer (.register v))
  | none => .refused .noSuchRegister

/-- Reset (R240, R241): the state of 10_state.md R23, no completion. The parameters stay, the host's later actions stay, and
unspecified bytes are drawn afresh (log 10). -/
def hostReset (s : State) : Host.Outcome State Fault Refusal :=
  .next { State.resetWith s.cfg with inbox := s.inbox, draws := s.draws + 1 }

/-- What one host action does (R51). -/
def hostAct (a : HostAction) (s : State) : Host.Outcome State Fault Refusal :=
  match a with
  | .issue d => hostIssue d s
  | .appendTx bytes => hostAppendTx bytes s
  | .writeIbuf offset b => hostWriteIbuf offset b s
  | .readObuf offset => hostReadObuf offset s
  | .consumeRx count => hostConsumeRx count s
  | .readReg number => hostReadReg number s
  | .reset => hostReset s

/-- The next action: with none at hand USFP waits (70_reset_and_hazards.md R242); else the oldest one acts, whole (20_memory.md
R45, R47). -/
def serveHost (s : State) : Host.Outcome State Fault Refusal :=
  match s.inbox with
  | [] => .next (s.advance [])
  | a :: rest => hostAct a (s.advance rest)

/-- Put a descriptor where the next step takes its action: the front of the inbox. -/
def placeDescriptor (s : State) (d : Descriptor) : State := { s with inbox := .issue d :: s.inbox }

end Sys2Proof.Machine
end

