-- ==== Sys2Proof/Machine/Step.lean ====
section
/-! DEFINITION. One step: one command or one host action (70_reset_and_hazards.md R250), for a parameter set the spec allows. -/

namespace Sys2Proof.Machine

/-- One step of the machine. A parameter set outside R6, R92 and R94 is outside the model (U18, log 9). -/
def step (s : State) : Host.Outcome State Fault Refusal :=
  if s.cfg.wf then serveHost s else .refused .badParameters

/-- `s` with the instruction whose bits are `w` as the host's next action (log 3): USFP fetches no instructions (10_state.md R12),
so the descriptor is issued. Nothing else changes. -/
def State.withFetchWord (s : State) (nbits w : Nat) : State := placeDescriptor s (BitVec.ofNat 64 (w % 2 ^ nbits))

end Sys2Proof.Machine
end

