-- ==== Sys2Proof/Machine/Assembler.lean ====
section
/-! DEFINITION. The text form of a command (30_encoding.md R69): a mnemonic, then `name=value` operands separated by commas, values
decimal or hexadecimal, an omitted operand 0; CONFIG also takes the short line form and the flow names. What R69 leaves open is in
log 16. -/

namespace Sys2Proof

/-- The characters between separators. -/
def splitAtChar (sep : Char) : List Char → List (List Char)
  | [] => [[]]
  | c :: cs =>
      if c = sep then [] :: splitAtChar sep cs
      else
        match splitAtChar sep cs with
        | [] => [[c]]
        | w :: ws => (c :: w) :: ws

/-- A piece of text without the spaces around it. -/
def trimSpaces (cs : List Char) : List Char :=
  ((cs.dropWhile (· == ' ')).reverse.dropWhile (· == ' ')).reverse

/-- The value of a digit in a base of at most 16. -/
def digitValue (base : Nat) (c : Char) : Option Nat :=
  let v :=
    if '0'.toNat ≤ c.toNat ∧ c.toNat ≤ '9'.toNat then c.toNat - '0'.toNat
    else if 'a'.toNat ≤ c.toNat ∧ c.toNat ≤ 'f'.toNat then c.toNat - 'a'.toNat + 10
    else if 'A'.toNat ≤ c.toNat ∧ c.toNat ≤ 'F'.toNat then c.toNat - 'A'.toNat + 10
    else 16
  if v < base then some v else none

/-- Digits after those that gave `acc`. -/
def digitsFrom (base : Nat) : Nat → List Char → Option Nat
  | acc, [] => some acc
  | acc, c :: cs =>
      match digitValue base c with
      | some v => digitsFrom base (acc * base + v) cs
      | none => none

/-- A decimal or `0x` hexadecimal number. -/
def numberOf : List Char → Option Nat
  | [] => none
  | ['0', 'x'] => none
  | '0' :: 'x' :: ds => digitsFrom 16 0 ds
  | ds => digitsFrom 10 0 ds

/-- The names operands have. -/
inductive OperandName where
  | rev | iface | serial | speed | dbits | parity | stop2 | flow | xon | xoff | on | len
deriving DecidableEq, Repr

/-- An operand's name from its text; `line` is handled apart. -/
def operandName (cs : List Char) : Option OperandName :=
  if cs = ['r', 'e', 'v'] then some .rev
  else if cs = ['i', 'f', 'a', 'c', 'e'] then some .iface
  else if cs = ['s', 'e', 'r', 'i', 'a', 'l'] then some .serial
  else if cs = ['s', 'p', 'e', 'e', 'd'] then some .speed
  else if cs = ['d', 'b', 'i', 't', 's'] then some .dbits
  else if cs = ['p', 'a', 'r', 'i', 't', 'y'] then some .parity
  else if cs = ['s', 't', 'o', 'p', '2'] then some .stop2
  else if cs = ['f', 'l', 'o', 'w'] then some .flow
  else if cs = ['x', 'o', 'n'] then some .xon
  else if cs = ['x', 'o', 'f', 'f'] then some .xoff
  else if cs = ['o', 'n'] then some .on
  else if cs = ['l', 'e', 'n'] then some .len
  else none

/-- The flow names `none`, `rtscts`, `xonxoff` (R69, R63). -/
def flowName (cs : List Char) : Option Nat :=
  if cs = ['n', 'o', 'n', 'e'] then some 0
  else if cs = ['r', 't', 's', 'c', 't', 's'] then some 1
  else if cs = ['x', 'o', 'n', 'x', 'o', 'f', 'f'] then some 2
  else none

/-- The parity letter of the short line form. -/
def parityLetter (c : Char) : Option Nat :=
  if c = 'N' then some 0 else if c = 'O' then some 1 else if c = 'E' then some 2 else none

/-- The stop-bits digit of the short line form. -/
def stopDigit (c : Char) : Option Nat := if c = '1' then some 0 else if c = '2' then some 1 else none

/-- The short line form `<dbits><N|O|E><1|2>`: three operands. -/
def lineForm (cs : List Char) : Option (List (OperandName × Nat)) :=
  match cs with
  | [d, p, t] =>
      match digitValue 10 d, parityLetter p, stopDigit t with
      | some dbits, some parity, some stop2 => some [(.dbits, dbits), (.parity, parity), (.stop2, stop2)]
      | _, _, _ => none
  | _ => none

/-- A value: for `flow` a flow name or a number, for any other operand a number. -/
def operandValue (name : OperandName) (value : List Char) : Option Nat :=
  if name = .flow then
    match flowName value with
    | some v => some v
    | none => numberOf value
  else numberOf value

/-- One `name=value` operand. -/
def operandOf (text : List Char) : Option (List (OperandName × Nat)) :=
  match splitAtChar '=' text with
  | [name, value] =>
      if name = ['l', 'i', 'n', 'e'] then lineForm value
      else
        match operandName name with
        | some n =>
            match operandValue n value with
            | some v => some [(n, v)]
            | none => none
        | none => none
  | _ => none

/-- All operands of a line, in order. -/
def operandsOf : List (List Char) → Option (List (OperandName × Nat))
  | [] => some []
  | t :: ts =>
      match operandOf (trimSpaces t), operandsOf ts with
      | some xs, some ys => some (xs ++ ys)
      | _, _ => none

/-- The operand's value as a field of width `w`; omitted it is 0 (R69); none if it does not fit. -/
def fieldValue (ops : List (OperandName × Nat)) (name : OperandName) (w : Nat) : Option (BitVec w) :=
  match ops.find? (fun o => o.1 == name) with
  | none => some 0
  | some o => if o.2 < 2 ^ w then some (BitVec.ofNat w o.2) else none

/-- Every operand is one the mnemonic has, and none is given twice. -/
def namesOk (allowed : List OperandName) (ops : List (OperandName × Nat)) : Bool :=
  (ops.map Prod.fst).all (fun n => allowed.contains n) && decide (ops.map Prod.fst).Nodup

/-- `RESOLVE rev, iface, serial`. -/
def assembleResolve (ops : List (OperandName × Nat)) : Option Instr :=
  if namesOk [.rev, .iface, .serial] ops then
    match fieldValue ops .rev 16, fieldValue ops .iface 8, fieldValue ops .serial 1 with
    | some rev, some iface, some serial => some (.resolve rev iface (serial == 1#1))
    | _, _, _ => none
  else none

/-- `CONFIG speed, line, flow, xon, xoff`. -/
def assembleConfig (ops : List (OperandName × Nat)) : Option Instr :=
  if namesOk [.speed, .dbits, .parity, .stop2, .flow, .xon, .xoff] ops then
    match fieldValue ops .speed 32, fieldValue ops .dbits 4, fieldValue ops .parity 2, fieldValue ops .stop2 1,
      fieldValue ops .flow 2, fieldValue ops .xon 8, fieldValue ops .xoff 8 with
    | some speed, some dbits, some parity, some stop2, some flow, some xon, some xoff =>
        some (.config speed dbits parity (stop2 == 1#1) flow xon xoff)
    | _, _, _, _, _, _, _ => none
  else none

/-- `BREAK on`. -/
def assembleBrk (ops : List (OperandName × Nat)) : Option Instr :=
  if namesOk [.on] ops then
    match fieldValue ops .on 1 with
    | some on => some (.brk (on == 1#1))
    | none => none
  else none

/-- `FRAME`. -/
def assembleFrame (ops : List (OperandName × Nat)) : Option Instr := if namesOk [] ops then some .frame else none

/-- `PARSE len`. -/
def assembleParse (ops : List (OperandName × Nat)) : Option Instr :=
  if namesOk [.len] ops then
    match fieldValue ops .len 16 with
    | some len => some (.parse len)
    | none => none
  else none

/-- The command a mnemonic and its operands name. -/
def assembleOps (mnemonic : List Char) (ops : List (OperandName × Nat)) : Option Instr :=
  if mnemonic = ['R', 'E', 'S', 'O', 'L', 'V', 'E'] then assembleResolve ops
  else if mnemonic = ['C', 'O', 'N', 'F', 'I', 'G'] then assembleConfig ops
  else if mnemonic = ['B', 'R', 'E', 'A', 'K'] then assembleBrk ops
  else if mnemonic = ['F', 'R', 'A', 'M', 'E'] then assembleFrame ops
  else if mnemonic = ['P', 'A', 'R', 'S', 'E'] then assembleParse ops
  else none

/-- One line of text: exactly one command (R69: there are no pseudo-instructions). -/
def assemble (line : List Char) : Option Instr :=
  let t := trimSpaces line
  let mnemonic := t.takeWhile (· != ' ')
  let rest := trimSpaces (t.dropWhile (· != ' '))
  match (if rest.isEmpty then some [] else operandsOf (splitAtChar ',' rest)) with
  | some ops => assembleOps mnemonic ops
  | none => none

/-- The descriptor of one line of text. -/
def assembleDescriptor (line : List Char) : Option Descriptor := (assemble line).map encode

end Sys2Proof
end

