-- ==== Sys2Proof/WellFormed.lean ====
section
/-! DEFINITION. Which commands are well formed: every operand is inside the set the document defines (30_encoding.md R68). A legal
descriptor whose command is not well formed completes with ERR_BAD_OPERAND (60_exceptions.md R213). -/

namespace Sys2Proof

/-- Well-formedness of a command for an instance with parameters `p` (R68, R213). -/
def Instr.wellFormed (p : Params) : Instr → Bool
  | .resolve _ _ _ => true
  | .config _ dbits parity _ flow _ _ => lineOperandsOk dbits parity flow
  | .brk _ => true
  | .frame => true
  | .parse len => lenOperandOk p len

end Sys2Proof
end

