-- ==== Sys2Proof/Safety.lean ====
section
/-! DEFINITION. The terms claims about USFP use: the invariant of 10_state.md R24, the legal descriptors by the opcode table, the
positions of headers and payload in an inbound buffer, reading back a headered outbound buffer, and states that agree but for what a
command may not see. -/

namespace Sys2Proof.Machine

/-- A descriptor that matches a row of spec/opcode_table.json under the row's mask (30_encoding.md R62 to R66). -/
def legalDescriptor (d : Descriptor) : Bool :=
  d &&& 0xFFFFFFFFFE000000#64 == 0x1000000000000000#64
    || d &&& 0xF0000C8000000000#64 == 0x2000000000000000#64
    || d &&& 0xFFFFFFFFFFFFFFFE#64 == 0x3000000000000000#64
    || d &&& 0xFFFFFFFFFFFFFFFF#64 == 0x4000000000000000#64
    || d &&& 0xFFFFFFFFFFFF0000#64 == 0x5000000000000000#64

/-- A completion record whose status is one of the four error codes (60_exceptions.md R210). -/
def errorRecord (c : Half) : Bool :=
  c.setWidth 8 == 0x01#8 || c.setWidth 8 == 0x10#8 || c.setWidth 8 == 0x11#8 || c.setWidth 8 == 0x12#8

/-- What holds after every command (10_state.md R24), with the canonical form of the two buffers. -/
structure State.Inv (s : State) : Prop where
  /-- The parameters meet R6, R92 and R94. -/
  params : s.cfg.wf = true
  /-- R24 (a). -/
  header : s.hdrlen = 1#1 ↔ s.pvalid = true ∧ s.gen = .g0
  /-- R24 (b), for every table that meets R92 and not the default one alone. -/
  plainG0 : s.gen = .g0 → s.portno = 0#8 ∧ s.hindex = false ∧ s.clk12m = false
  /-- R24 (c). -/
  lcwNoBreak : s.lcw.getLsbD 14 = false
  /-- R24 (d). -/
  lastLcw : s.lastLcw &&& 0xBFFF#16 = if s.wvalid then s.lcw else 0#16
  /-- R24 (e). -/
  olenBound : s.olen.toNat ≤ s.cfg.obufCap
  /-- R24 (f). -/
  lineMasked : s.stLine &&& ~~~s.cfg.maskOf s.gen = 0#8
  /-- Before RESOLVE no status has been recorded (44_parser.md R185, 60_exceptions.md R213). -/
  unresolved : s.pvalid = false → s.stLine = 0#8
  /-- OBUF is in canonical form. -/
  obufWf : Memory.wf s.obuf = true
  /-- IBUF is in canonical form. -/
  ibufWf : Memory.wf s.ibuf = true
  /-- OBUF lists no offset at or above OBUF_CAP (20_memory.md R41). -/
  obufBelow : Memory.below s.cfg.obufCap s.obuf = true
  /-- IBUF lists no offset at or above IBUF_CAP (20_memory.md R40). -/
  ibufBelow : Memory.below s.cfg.ibufCap s.ibuf = true
  /-- Every offset below OLEN has been written (20_memory.md R41: without gaps). -/
  obufFilled : ∀ i, i < s.olen.toNat → (Memory.read? s.obuf i).isSome = true

/-- The offsets of the packet headers in a buffer of `len` bytes cut at multiples of the packet size (44_parser.md R180, R182). -/
def headerOffsets (maxpkt len : Nat) : List Nat := (List.range len).filter (fun i => i % maxpkt == 0 && decide (i + 2 ≤ len))

/-- The offsets of the payload bytes: every offset that is not one of the first two of its packet. -/
def payloadOffsets (maxpkt len : Nat) : List Nat := (List.range len).filter (fun i => decide (2 ≤ i % maxpkt))

/-- The offset of the last header of a buffer of at least 2 bytes. -/
def lastHeaderOffset (maxpkt len : Nat) : Nat := maxpkt * ((len - 2) / maxpkt)

/-- The number of headers 44_parser.md R187 gives for a buffer of at least 2 bytes. -/
def headerCount (maxpkt len : Nat) : Nat := if len % maxpkt = 1 then len / maxpkt else (len + maxpkt - 1) / maxpkt

/-- The high half of a packed divisor whose fraction code has top bit `top`: FCODE[2] at bit 0 and FAST at bit 1, shifted left by 8
with HINDEX (30_encoding.md R70). -/
def highHalf (hindex fast : Bool) (top : Nat) : Half :=
  BitVec.ofNat 16 ((top + if fast then 2 else 0) * if hindex then 256 else 1)

/-- The bytes `OBUF[0 .. n-1]` as the host reads them. -/
def obufBytes (s : State) (n : Nat) : List Byte := (List.range n).map (readObuf s)

/-- Read a headered buffer back: each chunk is a header whose CLEN field, bits [7:2], counts the payload bytes after it
(30_encoding.md R75). None if a chunk is empty or runs past the end. -/
def deframe : Nat → List Byte → Option (List Byte)
  | _, [] => some []
  | 0, _ :: _ => none
  | fuel + 1, h :: rest =>
      if h.toNat / 4 = 0 ∨ rest.length < h.toNat / 4 then none
      else (deframe fuel (rest.drop (h.toNat / 4))).map (rest.take (h.toNat / 4) ++ ·)

/-- Every byte `IBUF[0 .. n-1]` has been written by the host since reset (70_reset_and_hazards.md R245). -/
def ibufFilled (s : State) (n : Nat) : Prop := ∀ i, i < n → (Memory.read? s.ibuf i).isSome = true

/-- The seventeen registers agree (10_state.md R13). -/
def sameRegisters (s t : State) : Prop := ∀ n, registerValue t n = registerValue s n

end Sys2Proof.Machine
end

