-- ==== Sys2Proof/Certificates/Slice0/Obligations.lean ====
section
/-! DEFINITION. The statements for the provers, one definition each. -/

open Sys2Proof Sys2Proof.Machine

/-! ### Encoding -/

/-- Decoding an encoded command gives it back, every operand at every value (30_encoding.md R62 to R67). -/
def Obligations.DecodeOfEncode : Prop := ∀ i : Instr, decode (encode i) = .ok i

/-- A descriptor has one meaning and loses no bit: encoding what was decoded gives the descriptor back (R60, R62 to R67). -/
def Obligations.EncodeOfDecode : Prop := ∀ (d : Descriptor) (i : Instr), decode d = .ok i → encode i = d

/-- The decoder accepts exactly the descriptors the opcode table's rows match (R68). -/
def Obligations.DecodeAcceptsExactlyTableRows : Prop := ∀ d : Descriptor, (∃ i, decode d = .ok i) ↔ legalDescriptor d = true

/-- Descriptors of 95_test_vectors.md, written out from the formats R62 to R66, decode to the commands they stand for. -/
def Obligations.KnownDescriptorsDecode : Prop :=
  decode 0x1000000001010700#64 = .ok (.resolve 0x0700#16 1#8 true)
    ∧ decode 0x2131125800004B00#64 = .ok (.config 19200#32 8#4 1#2 true 2#2 0x11#8 0x13#8)
    ∧ decode 0x3000000000000001#64 = .ok (.brk true)
    ∧ decode 0x4000000000000000#64 = .ok .frame
    ∧ decode 0x5000000000000013#64 = .ok (.parse 19#16)

/-! ### The step -/

/-- A step whose next host action issues a legal descriptor is exec of the decoded command; before it, the action leaves the
inbox and the last reply goes (10_state.md R12, 20_memory.md R47). -/
def Obligations.StepRunsIssuedCommand : Prop :=
  ∀ (s : State) (d : Descriptor) (rest : List HostAction) (i : Instr), s.cfg.wf = true → s.inbox = .issue d :: rest →
    decode d = .ok i → step s = exec i { s with inbox := rest, reply := none }

/-- An illegal descriptor completes with ERR_ILLEGAL_CMD and changes no state, whatever the state (R68, R215). -/
def Obligations.IllegalDescriptorChangesNothing : Prop :=
  ∀ (s : State) (d : Descriptor) (rest : List HostAction), s.cfg.wf = true → s.inbox = .issue d :: rest →
    legalDescriptor d = false → step s = .next { s with inbox := rest, reply := some (.completion 0x0010#16) }

/-- Every command returns one completion record, of the six codes of R210, with bits [15:12] zero, only flags of its own
command, and no flag beside an error code (30_encoding.md R78). -/
def Obligations.EveryCommandReturnsACompletion : Prop :=
  ∀ (i : Instr) (s : State), ∃ (t : State) (c : Half), exec i s = .next t ∧ t.reply = some (.completion c)
    ∧ c.extractLsb' 12 4 = 0#4
    ∧ (c.setWidth 8 = 0x00#8 ∨ c.setWidth 8 = 0x01#8 ∨ c.setWidth 8 = 0x02#8 ∨ c.setWidth 8 = 0x10#8 ∨ c.setWidth 8 = 0x11#8
      ∨ c.setWidth 8 = 0x12#8)
    ∧ (c.getLsbD 8 = true → ∃ rev iface serial, i = .resolve rev iface serial)
    ∧ (c.getLsbD 9 = true → i = .frame)
    ∧ (c.getLsbD 10 = true → ∃ len, i = .parse len)
    ∧ (c.getLsbD 11 = true → ∃ len, i = .parse len)
    ∧ (errorRecord c = true → c.extractLsb' 8 4 = 0#4)

/-- A command that completes with an error code, the illegal descriptors among them, or with SHORT_BUFFER changes no register,
buffer or queue: the state after it differs in the completion record alone. With an error code all flags are 0
(60_exceptions.md R214). -/
def Obligations.ErrorsHaveNoEffect : Prop :=
  ∀ (s t : State) (d : Descriptor) (rest : List HostAction) (c : Half), s.inbox = .issue d :: rest → step s = .next t →
    t.reply = some (.completion c) → (errorRecord c = true ∨ c.setWidth 8 = 0x02#8) →
    t = { s with inbox := rest, reply := some (.completion c) } ∧ (errorRecord c = true → c.extractLsb' 8 4 = 0#4)

/-- The host action after an erroring command behaves exactly as if that command had never been issued (60_exceptions.md
R217). -/
def Obligations.ErroringCommandLeavesNoTrace : Prop :=
  ∀ (s t : State) (d : Descriptor) (rest : List HostAction) (c : Half), s.inbox = .issue d :: rest → step s = .next t →
    t.reply = some (.completion c) → errorRecord c = true → step t = step { s with inbox := rest }

/-- RESOLVE with a valid profile, and every other command without one, completes with ERR_SEQUENCE and changes nothing,
before any operand is looked at (60_exceptions.md R213, R215). -/
def Obligations.SequenceErrors : Prop :=
  ∀ s : State,
    (s.pvalid = true → ∀ rev iface serial, exec (.resolve rev iface serial) s = .next { s with reply := some (.completion 0x0011#16) })
    ∧ (s.pvalid = false → ∀ i : Instr, (∀ rev iface serial, i ≠ .resolve rev iface serial) →
      exec i s = .next { s with reply := some (.completion 0x0011#16) })

/-- With the sequence in order, an operand outside its set completes with ERR_BAD_OPERAND and changes nothing, whatever the
speed (60_exceptions.md R213, R215). -/
def Obligations.OperandErrors : Prop :=
  ∀ (s : State) (speed : BitVec 32) (dbits : BitVec 4) (parity : BitVec 2) (stop2 : Bool) (flow : BitVec 2) (xonc xoffc : Byte)
    (len : Half), s.pvalid = true →
    (dbits.toNat < 5 ∨ 8 < dbits.toNat ∨ parity.toNat = 3 ∨ flow.toNat = 3 →
      exec (.config speed dbits parity stop2 flow xonc xoffc) s = .next { s with reply := some (.completion 0x0012#16) })
    ∧ (s.cfg.ibufCap < len.toNat → exec (.parse len) s = .next { s with reply := some (.completion 0x0012#16) })

/-! ### Reset and invariants -/

/-- After reset every register reads 0, both queues are empty and no buffer byte has a specified value, whatever the parameters
(10_state.md R23, 70_reset_and_hazards.md R241). -/
def Obligations.ResetLeavesTheTable : Prop :=
  ∀ p : Params, (∀ n, n ≤ 16 → registerValue (State.resetWith p) n = some 0#16)
    ∧ (State.resetWith p).txq = [] ∧ (State.resetWith p).rxq = []
    ∧ ∀ i, Memory.read? (State.resetWith p).obuf i = none ∧ Memory.read? (State.resetWith p).ibuf i = none

/-- The invariant holds after reset, for every parameter set the spec allows and for the model's own (log 2). -/
def Obligations.ResetMeetsInv : Prop := (∀ p : Params, p.wf = true → (State.resetWith p).Inv) ∧ State.reset.Inv

/-- Every step, of a command or of the host, keeps the invariants of 10_state.md R24 and the canonical form of the buffers. -/
def Obligations.StepKeepsInv : Prop := ∀ s t : State, s.Inv → step s = .next t → t.Inv

/-- No step changes the parameters (00_scope.md R6). -/
def Obligations.StepKeepsParameters : Prop := ∀ s t : State, step s = .next t → t.cfg = s.cfg

/-- A resolved profile stays as it is until reset (10_state.md R14). -/
def Obligations.ProfileImmutable : Prop :=
  ∀ s t : State, s.pvalid = true → s.inbox.head? ≠ some .reset → step s = .next t →
    t.pvalid = s.pvalid ∧ t.warn = s.warn ∧ t.gen = s.gen ∧ t.hindex = s.hindex ∧ t.clk12m = s.clk12m ∧ t.hdrlen = s.hdrlen
      ∧ t.portno = s.portno

/-- The WireConfig registers and WVALID change by CONFIG (and reset) only (10_state.md R15). -/
def Obligations.WireConfigOnlyByConfig : Prop :=
  ∀ s t : State, s.inbox.head? ≠ some .reset → (∀ d, s.inbox.head? = some (.issue d) → d.extractLsb' 60 4 ≠ 0x2#4) →
    step s = .next t →
    t.baudLo = s.baudLo ∧ t.baudHi = s.baudHi ∧ t.lcw = s.lcw ∧ t.flowSel = s.flowSel ∧ t.xon = s.xon ∧ t.xoff = s.xoff
      ∧ t.wvalid = s.wvalid

/-- While no profile exists, a step that does not create one leaves every register as it was or at its reset value
(70_reset_and_hazards.md R242: the only command that can succeed is RESOLVE). -/
def Obligations.UnresolvedRegistersStay : Prop :=
  ∀ s t : State, s.pvalid = false → sameRegisters (State.resetWith s.cfg) s → step s = .next t → t.pvalid = false →
    sameRegisters (State.resetWith s.cfg) t

/-! ### RESOLVE -/

/-- RESOLVE takes the first row with the code: its generation, flags and port rule, HDRLEN 1 for G0 alone, no warning, and nothing
else changes (40_profile.md R92, R95, R96, R97). The port sum wraps modulo 256. -/
def Obligations.ResolveTakesFirstRow : Prop :=
  ∀ (s : State) (rev : Half) (iface : Byte) (serial : Bool) (pre post : List ProfileRow) (r : ProfileRow), s.pvalid = false →
    s.cfg.profileTable = pre ++ r :: post → (∀ q ∈ pre, q.code ≠ rev) → r.code = rev → rev ≠ 0x0200#16 →
    exec (.resolve rev iface serial) s = .next { s with
      pvalid := true
      warn := false
      gen := r.gen
      hindex := r.caps.hindex
      clk12m := r.caps.clk12m
      hdrlen := if r.gen = .g0 then 1#1 else 0#1
      portno := if r.multiport then BitVec.ofNat 8 ((s.cfg.portBase.toNat + iface.toNat) % 256) else 0#8
      reply := some (.completion 0x0000#16) }

/-- Code 0x0200 is resolved by SERIAL: G1 with a serial-number string, G2 without; flags and port rule are those of the first row
for that code, which every parameter set the spec allows has, and nothing else changes (40_profile.md R93, R95, R96, R97). -/
def Obligations.ErratumResolvedBySerial : Prop :=
  ∀ (s : State) (iface : Byte) (serial : Bool), s.pvalid = false → s.cfg.wf = true →
    ∃ (pre post : List ProfileRow) (r : ProfileRow), s.cfg.profileTable = pre ++ r :: post ∧ (∀ q ∈ pre, q.code ≠ 0x0200#16)
      ∧ r.code = 0x0200#16
      ∧ exec (.resolve 0x0200#16 iface serial) s = .next { s with
          pvalid := true
          warn := false
          gen := if serial then .g1 else .g2
          hindex := r.caps.hindex
          clk12m := r.caps.clk12m
          hdrlen := 0#1
          portno := if r.multiport then BitVec.ofNat 8 ((s.cfg.portBase.toNat + iface.toNat) % 256) else 0#8
          reply := some (.completion 0x0000#16) }

/-- For every REV other than 0x0200 the SERIAL operand is ignored (40_profile.md R93). -/
def Obligations.SerialIgnoredElsewhere : Prop :=
  ∀ (s : State) (rev : Half) (iface : Byte) (a b : Bool), rev ≠ 0x0200#16 →
    exec (.resolve rev iface a) s = exec (.resolve rev iface b) s

/-- A code with no row falls back: below REV_THRESHOLD to G0 without flags, port or warning; at or above it to FALLBACK_GEN and
FALLBACK_FLAGS, single port, with the warning in PSTAT and in the completion (40_profile.md R94, R97, R98). -/
def Obligations.ResolveFallsBack : Prop :=
  ∀ (s : State) (rev : Half) (iface : Byte) (serial : Bool), s.pvalid = false → (∀ r ∈ s.cfg.profileTable, r.code ≠ rev) →
    (rev.toNat < s.cfg.revThreshold.toNat →
      exec (.resolve rev iface serial) s = .next { s with
        pvalid := true, warn := false, gen := .g0, hindex := false, clk12m := false, hdrlen := 1#1, portno := 0#8
        reply := some (.completion 0x0000#16) })
    ∧ (s.cfg.revThreshold.toNat ≤ rev.toNat →
      exec (.resolve rev iface serial) s = .next { s with
        pvalid := true, warn := true, gen := s.cfg.fallbackGen, hindex := s.cfg.fallbackCaps.hindex
        clk12m := s.cfg.fallbackCaps.clk12m, hdrlen := if s.cfg.fallbackGen = .g0 then 1#1 else 0#1, portno := 0#8
        reply := some (.completion 0x0100#16) })

/-- With the default table and threshold every code resolves, to the generation of R92 to R94. -/
def Obligations.DefaultTableResolvesEveryCode : Prop :=
  ∀ (s : State) (rev : Half) (iface : Byte) (serial : Bool), s.pvalid = false → s.cfg.profileTable = defaultProfileTable →
    s.cfg.revThreshold = 0x0200#16 → s.cfg.fallbackGen = .g4 →
    ∃ t : State, exec (.resolve rev iface serial) s = .next t ∧ t.pvalid = true
      ∧ t.gen = (if rev.toNat < 0x0200 then .g0
          else if rev = 0x0200#16 then (if serial then .g1 else .g2)
          else if rev = 0x0400#16 then .g2
          else if rev = 0x0500#16 then .g3
          else if rev = 0x0600#16 then .g4
          else if rev = 0x0700#16 then .g5
          else if rev = 0x0800#16 then .g6
          else if rev = 0x0900#16 then .g7
          else .g4)
      ∧ (t.hdrlen = 1#1 ↔ rev.toNat < 0x0200)

/-! ### The baud encoder -/

/-- The fixed-table algorithm: the zero-based index of an exact match with high half 0, and nothing else accepted; the index decodes
to the speed (41_baud.md R101, 30_encoding.md R71). -/
def Obligations.FixedTableExactMatch : Prop :=
  ∀ (p : Params) (hindex clk12m : Bool) (speed : Nat) (lo hi : Half),
    encodeBaud p .fixed hindex clk12m speed = some (lo, hi) ↔
      hi = 0#16 ∧ [300, 600, 1200, 2400, 4800, 9600, 19200, 38400, 57600, 115200][lo.toNat]? = some speed

/-- Reachability: without the fast clock 183 to 3 000 000, with it 1200 to 12 000 000; outside, no encoding (41_baud.md R102,
R103). -/
def Obligations.SpeedsOutsideRangeRejected : Prop :=
  ∀ (p : Params) (cls : GenClass) (hindex : Bool) (speed : Nat), cls ≠ .fixed →
    (speed < 183 ∨ 3000000 < speed → encodeBaud p cls hindex false speed = none)
    ∧ (speed < 183 ∨ 12000000 < speed → encodeBaud p cls hindex true speed = none)

/-- A divisor-class speed is accepted exactly if it is in the range of its clock and the speed recomputed from the divisor in eighths
lies within the two floor bounds, both inclusive; the pair is then the packed divisor, split (41_baud.md R102, R103, R110, R113,
R114). -/
def Obligations.SpeedAcceptedExactlyInTolerance : Prop :=
  ∀ (p : Params) (cls : GenClass) (hindex clk12m fast : Bool) (clk speed d8 : Nat) (lo hi : Half), cls ≠ .fixed →
    (fast = true ↔ clk12m = true ∧ 1200 ≤ speed) → clk = (if fast then 12000000 else 3000000) →
    d8 = divisorEighths p.roundoff cls clk speed →
    (encodeBaud p cls hindex clk12m speed = some (lo, hi) ↔
      (if fast then 1200 else 183) ≤ speed ∧ speed ≤ clk ∧ speed * 100 / 103 ≤ clk * 8 / d8 ∧ clk * 8 / d8 ≤ speed * 100 / 97
        ∧ (lo, hi) = splitDivisor hindex (packDivisor (repack p.int1Policy d8).1 (repack p.int1Policy d8).2 fast))

/-- The divisor in eighths by class, from the sixteenths: LATER rounds to the nearest eighth, an odd sixteenth up but for low nibble
1; EARLY with the default ROUNDOFF gives the eighths of R108's last row, low nibble 1 dropping to 0 (41_baud.md R104 to R109). -/
def Obligations.EighthsByClass : Prop :=
  ∀ (p : Params) (clk speed : Nat),
    (divisorEighths p.roundoff .later clk speed
      = if clk * 16 / speed % 16 = 1 then clk * 16 / speed / 16 * 8 else (clk * 16 / speed + 1) / 2)
    ∧ (p.roundoff = defaultRoundoff → 16 ≤ clk * 16 / speed →
      divisorEighths p.roundoff .early clk speed
        = clk * 16 / speed / 16 * 8
          + [0, 0, 1, 2, 2, 2, 4, 4, 4, 4, 4, 4, 8, 8, 8, 8].getD (clk * 16 / speed % 16) 0)

/-- With the default ROUNDOFF the class EARLY reaches only the fraction indices 0, 1, 2 and 4, so its fraction codes are 0, 3, 2
and 1, never 4 to 7 (41_baud.md R108). -/
def Obligations.EarlyReachesFourFractions : Prop :=
  ∀ clk speed : Nat,
    divisorEighths defaultRoundoff .early clk speed % 8 = 0 ∨ divisorEighths defaultRoundoff .early clk speed % 8 = 1
      ∨ divisorEighths defaultRoundoff .early clk speed % 8 = 2 ∨ divisorEighths defaultRoundoff .early clk speed % 8 = 4

/-- Steps 4 and 5 move the divisor by at most 4 sixteenths for every ROUNDOFF of the stated range, and by at most one sixteenth
outside the class EARLY (41_baud.md R105 to R109). -/
def Obligations.RoundingStaysClose : Prop :=
  ∀ (p : Params) (cls : GenClass) (clk speed : Nat), p.wf = true → 16 ≤ clk * 16 / speed →
    2 * divisorEighths p.roundoff cls clk speed ≤ clk * 16 / speed + 4
      ∧ clk * 16 / speed ≤ 2 * divisorEighths p.roundoff cls clk speed + 4
      ∧ (cls ≠ .early → 2 * divisorEighths p.roundoff cls clk speed ≤ clk * 16 / speed + 1
        ∧ clk * 16 / speed ≤ 2 * divisorEighths p.roundoff cls clk speed + 1)

/-- With the default ROUNDOFF, for every speed step 2 lets through, the sixteenths lie in 16 .. 262295 and the eighths in
8 .. 131148, so no division is by zero (41_baud.md R104, R109, R115). -/
def Obligations.DivisorStaysInBounds : Prop :=
  ∀ (cls : GenClass) (fast : Bool) (speed : Nat), speedInRange (clockOf fast) speed = true → (fast = true → 1200 ≤ speed) →
    16 ≤ clockOf fast * 16 / speed ∧ clockOf fast * 16 / speed ≤ 262295
      ∧ 8 ≤ divisorEighths defaultRoundoff cls (clockOf fast) speed
      ∧ divisorEighths defaultRoundoff cls (clockOf fast) speed ≤ 131148

/-- Speed 183 is the only accepted speed whose integral divisor does not fit 14 bits (41_baud.md R116). -/
def Obligations.OnlySpeed183Overflows : Prop :=
  ∀ (p : Params) (cls : GenClass) (hindex clk12m : Bool) (speed : Nat), p.wf = true → cls ≠ .fixed →
    (encodeBaud p cls hindex clk12m speed).isSome = true →
    (16384 ≤ divisorEighths p.roundoff cls (clockOf (fastClock clk12m speed)) speed / 8 ↔ speed = 183)

/-- Speed 183 is accepted and packs as (0x4009, 0x0000) on every divisor generation with the default ROUNDOFF (41_baud.md R116,
70_reset_and_hazards.md R246). -/
def Obligations.Speed183PacksByOverflow : Prop :=
  ∀ (p : Params) (cls : GenClass) (hindex clk12m : Bool), p.roundoff = defaultRoundoff → cls ≠ .fixed →
    encodeBaud p cls hindex clk12m 183 = some (0x4009#16, 0x0000#16)

/-- The packed fields: for an integral part of 14 bits the low half is INTEG with FCODE[1:0] above it, the high half FCODE[2] and
FAST, shifted left by 8 with HINDEX; FCODE is the entry of {0, 3, 2, 4, 1, 5, 6, 7} at the fraction index (30_encoding.md R70, R72,
41_baud.md R111, R113). -/
def Obligations.PackedDivisorFields : Prop :=
  ∀ (integ frac code : Nat) (fast : Bool), integ < 16384 → [0, 3, 2, 4, 1, 5, 6, 7][frac]? = some code →
    fracCode frac = code
    ∧ splitDivisor false (packDivisor integ frac fast)
      = (BitVec.ofNat 16 (integ + 16384 * (code % 4)), BitVec.ofNat 16 (code / 4 + if fast then 2 else 0))
    ∧ splitDivisor true (packDivisor integ frac fast)
      = (BitVec.ofNat 16 (integ + 16384 * (code % 4)), BitVec.ofNat 16 (256 * (code / 4 + if fast then 2 else 0)))

/-- Integral divisor 1 on either clock (41_baud.md R112, 70_reset_and_hazards.md R247): 1.0 is sent as 0.0, 1.5 as 1.0; the fractions
of 9, 10, 11, 13, 14 and 15 eighths stay as they are under `half_only` and drop under `any_nonzero`. The statement is over accepted
speeds. -/
def Obligations.IntegralOneReencoded : Prop :=
  ∀ (p : Params) (cls : GenClass) (hindex clk12m fast : Bool) (speed d8 : Nat) (lo hi : Half), cls ≠ .fixed →
    encodeBaud p cls hindex clk12m speed = some (lo, hi) → (fast = true ↔ clk12m = true ∧ 1200 ≤ speed) →
    d8 = divisorEighths p.roundoff cls (if fast then 12000000 else 3000000) speed →
    (d8 = 8 → lo = 0x0000#16 ∧ hi = highHalf hindex fast 0)
    ∧ (d8 = 12 → lo = 0x0001#16 ∧ hi = highHalf hindex fast 0)
    ∧ (p.int1Policy = .anyNonzero → 8 < d8 → d8 < 16 → lo = 0x0001#16 ∧ hi = highHalf hindex fast 0)
    ∧ (p.int1Policy = .halfOnly →
      (d8 = 9 → lo = 0xC001#16 ∧ hi = highHalf hindex fast 0) ∧ (d8 = 10 → lo = 0x8001#16 ∧ hi = highHalf hindex fast 0)
      ∧ (d8 = 11 → lo = 0x0001#16 ∧ hi = highHalf hindex fast 1) ∧ (d8 = 13 → lo = 0x4001#16 ∧ hi = highHalf hindex fast 1)
      ∧ (d8 = 14 → lo = 0x8001#16 ∧ hi = highHalf hindex fast 1) ∧ (d8 = 15 → lo = 0xC001#16 ∧ hi = highHalf hindex fast 1))

/-- The round trip: under `half_only`, for every divisor class, flags and accepted speed but 183, decoding the encoded pair gives a
speed within 3 % of the target (41_baud.md R117, R118). -/
def Obligations.BaudRoundTrip : Prop :=
  ∀ (p : Params) (cls : GenClass) (hindex clk12m : Bool) (speed : Nat) (lo hi : Half), p.wf = true → p.int1Policy = .halfOnly →
    cls ≠ .fixed → speed ≠ 183 → encodeBaud p cls hindex clk12m speed = some (lo, hi) →
    ∃ h : Nat, decodeBaud hindex lo hi = some h ∧ speed * 100 / 103 ≤ h ∧ h ≤ speed * 100 / 97

/-- Under `any_nonzero` the round trip fails, for instance at 2 400 000 on the 3 MHz clock, which decodes to 2 000 000 (41_baud.md
R118, 70_reset_and_hazards.md R247). -/
def Obligations.AnyNonzeroBreaksRoundTrip : Prop :=
  ∀ (p : Params) (cls : GenClass), p.roundoff = defaultRoundoff → p.int1Policy = .anyNonzero → cls ≠ .fixed →
    encodeBaud p cls false false 2400000 = some (0x0001#16, 0x0000#16)
      ∧ decodeBaud false 0x0001#16 0x0000#16 = some 2000000

/-! ### CONFIG and BREAK -/

/-- CONFIG with a profile, operands in their sets and a reachable speed writes the WireConfig and LAST_LCW together, the break bit 0,
and changes nothing else (42_lineconfig.md R130, R131, R132; 30_encoding.md R73, R74). -/
def Obligations.ConfigWritesWireConfig : Prop :=
  ∀ (s : State) (speed : BitVec 32) (dbits : BitVec 4) (parity : BitVec 2) (stop2 : Bool) (flow : BitVec 2) (xonc xoffc : Byte)
    (lo hi : Half), s.pvalid = true → 5 ≤ dbits.toNat → dbits.toNat ≤ 8 → parity.toNat < 3 → flow.toNat < 3 →
    encodeBaud s.cfg s.gen.cls s.hindex s.clk12m speed.toNat = some (lo, hi) →
    exec (.config speed dbits parity stop2 flow xonc xoffc) s = .next { s with
      baudLo := lo
      baudHi := hi
      lcw := BitVec.ofNat 16 (dbits.toNat + 0x0100 * parity.toNat + if stop2 then 0x1000 else 0)
      flowSel := if flow.toNat = 0 then 0x00#8 else if flow.toNat = 1 then 0x01#8 else 0x04#8
      xon := if flow.toNat = 2 then xonc else 0#8
      xoff := if flow.toNat = 2 then xoffc else 0#8
      wvalid := true
      lastLcw := BitVec.ofNat 16 (dbits.toNat + 0x0100 * parity.toNat + if stop2 then 0x1000 else 0)
      reply := some (.completion 0x0000#16) }

/-- CONFIG with an unreachable speed completes with ERR_UNREACHABLE_BAUD and changes nothing (60_exceptions.md R211). -/
def Obligations.ConfigUnreachableSpeed : Prop :=
  ∀ (s : State) (speed : BitVec 32) (dbits : BitVec 4) (parity : BitVec 2) (stop2 : Bool) (flow : BitVec 2) (xonc xoffc : Byte),
    s.pvalid = true → 5 ≤ dbits.toNat → dbits.toNat ≤ 8 → parity.toNat < 3 → flow.toNat < 3 →
    encodeBaud s.cfg s.gen.cls s.hindex s.clk12m speed.toNat = none →
    exec (.config speed dbits parity stop2 flow xonc xoffc) s = .next { s with reply := some (.completion 0x0001#16) }

/-- BREAK sets or clears bit 14 of LAST_LCW, every other bit and everything else unchanged; before RESOLVE it is ERR_SEQUENCE
(42_lineconfig.md R133). -/
def Obligations.BreakChangesBit14Only : Prop :=
  ∀ (s : State) (on : Bool),
    (s.pvalid = true →
      ∃ v : Half, exec (.brk on) s = .next { s with lastLcw := v, reply := some (.completion 0x0000#16) }
        ∧ ∀ i, i < 16 → v.getLsbD i = if i = 14 then on else s.lastLcw.getLsbD i)
    ∧ (s.pvalid = false → exec (.brk on) s = .next { s with reply := some (.completion 0x0011#16) })

/-- The frame of RESOLVE, CONFIG and BREAK: no buffer byte, no queue, not the parser's, tracker's or framer's registers; and each
leaves the registers that only the others write (10_state.md R14 to R18, R20, R21; 40_profile.md R97 and 42_lineconfig.md R132: no
buffer or queue is touched; R133). That a read of an unspecified byte (IBUF never written, OBUF at or above OLEN) agrees before and
after rests on which reads are one draw, the model's choice (log 6). -/
def Obligations.RegisterCommandsFrame : Prop :=
  ∀ (i : Instr) (s t : State), exec i s = .next t → i ≠ .frame → (∀ len, i ≠ .parse len) →
    (∀ a, Memory.read? t.obuf a = Memory.read? s.obuf a) ∧ (∀ a, readIbuf t a = readIbuf s a) ∧ (∀ a, readObuf t a = readObuf s a)
    ∧ t.txq = s.txq ∧ t.rxq = s.rxq ∧ t.stModem = s.stModem ∧ t.stLine = s.stLine ∧ t.svalid = s.svalid ∧ t.olen = s.olen
    ∧ t.inbox = s.inbox ∧ t.cfg = s.cfg
    ∧ ((∀ rev iface serial, i ≠ .resolve rev iface serial) → t.pvalid = s.pvalid ∧ t.warn = s.warn ∧ t.gen = s.gen
        ∧ t.hindex = s.hindex ∧ t.clk12m = s.clk12m ∧ t.hdrlen = s.hdrlen ∧ t.portno = s.portno)
    ∧ ((∀ speed dbits parity stop2 flow xonc xoffc, i ≠ .config speed dbits parity stop2 flow xonc xoffc) →
        t.baudLo = s.baudLo ∧ t.baudHi = s.baudHi ∧ t.lcw = s.lcw ∧ t.flowSel = s.flowSel ∧ t.xon = s.xon ∧ t.xoff = s.xoff
        ∧ t.wvalid = s.wvalid)
    ∧ ((∃ rev iface serial, i = .resolve rev iface serial) → t.lastLcw = s.lastLcw)

/-! ### FRAME -/

/-- Headerless framing: as many pending bytes as fit, in order, from offset 0; the rest stay pending; SUBMIT exactly when a byte was
copied (43_framer.md R161, R163, R166). -/
def Obligations.HeaderlessFrame : Prop :=
  ∀ s : State, s.pvalid = true → s.hdrlen = 0#1 → s.cfg.wf = true →
    ∃ t : State, exec .frame s = .next t ∧ t.olen.toNat = min s.txq.length s.cfg.obufCap
      ∧ obufBytes t t.olen.toNat = s.txq.take s.cfg.obufCap ∧ t.txq = s.txq.drop s.cfg.obufCap
      ∧ t.reply = some (.completion (if s.txq = [] then 0x0000#16 else 0x0200#16))

/-- Headered framing of N pending bytes that fit: ceil(N/63) chunks at every 64th offset, each header carrying its payload length and
PORTNO[1:0], total length N + ceil(N/63), nothing left pending (43_framer.md R162, R164; 30_encoding.md R75). -/
def Obligations.HeaderedFrameChunks : Prop :=
  ∀ s : State, s.pvalid = true → s.hdrlen = 1#1 → s.cfg.wf = true → 0 < s.txq.length →
    s.txq.length + (s.txq.length + 62) / 63 ≤ s.cfg.obufCap →
    ∃ t : State, exec .frame s = .next t ∧ t.olen.toNat = s.txq.length + (s.txq.length + 62) / 63 ∧ t.txq = []
      ∧ t.reply = some (.completion 0x0200#16)
      ∧ (∀ j, j < (s.txq.length + 62) / 63 →
          readObuf t (64 * j) = BitVec.ofNat 8 (4 * min 63 (s.txq.length - 63 * j) + s.portno.toNat % 4))
      ∧ (∀ i, i < s.txq.length → some (readObuf t (64 * (i / 63) + 1 + i % 63)) = s.txq[i]?)

/-- Headered framing loses, duplicates and reorders nothing: reading the buffer back chunk by chunk gives exactly the bytes taken from
the front of TXQ, and it stops only with nothing pending or less than 2 bytes of space (43_framer.md R162, R165). -/
def Obligations.HeaderedFrameLosesNothing : Prop :=
  ∀ s : State, s.pvalid = true → s.hdrlen = 1#1 → s.cfg.wf = true →
    ∃ (t : State) (k : Nat), exec .frame s = .next t ∧ k ≤ s.txq.length ∧ t.txq = s.txq.drop k
      ∧ deframe t.olen.toNat (obufBytes t t.olen.toNat) = some (s.txq.take k)
      ∧ (t.txq = [] ∨ s.cfg.obufCap - t.olen.toNat < 2)

/-- The first chunk of a headered FRAME: its payload is clamped to 63, to what is pending and to the space after the header, and the
header byte says so (43_framer.md R162, 30_encoding.md R75, 70_reset_and_hazards.md R253). -/
def Obligations.FirstChunkHeader : Prop :=
  ∀ s : State, s.pvalid = true → s.hdrlen = 1#1 → s.cfg.wf = true → 0 < s.txq.length →
    ∃ t : State, exec .frame s = .next t
      ∧ readObuf t 0 = BitVec.ofNat 8 (4 * min 63 (min s.txq.length (s.cfg.obufCap - 1)) + s.portno.toNat % 4)
      ∧ some (readObuf t 1) = s.txq[0]?

/-- FRAME's bounds: it writes below OBUF_CAP only, every byte at or above the new OLEN keeps what it held, and SUBMIT says whether OLEN
is not 0 (20_memory.md R41, 43_framer.md R163, R165). -/
def Obligations.FrameWritesBelowOlenOnly : Prop :=
  ∀ s : State, s.pvalid = true → s.cfg.wf = true →
    ∃ t : State, exec .frame s = .next t ∧ t.olen.toNat ≤ s.cfg.obufCap
      ∧ (∀ a, t.olen.toNat ≤ a → Memory.read? t.obuf a = Memory.read? s.obuf a)
      ∧ (∀ a, a < t.olen.toNat → (Memory.read? t.obuf a).isSome = true)
      ∧ t.reply = some (.completion (if t.olen = 0#16 then 0x0000#16 else 0x0200#16))

/-- The frame of FRAME: every register but OLEN, RXQ and every byte of IBUF the host has written are unchanged (43_framer.md
R166). -/
def Obligations.FrameFrame : Prop :=
  ∀ s t : State, exec .frame s = .next t →
    (∀ n, n ≠ 16 → registerValue t n = registerValue s n) ∧ t.ibuf = s.ibuf ∧ (∀ a, Memory.read? t.ibuf a = Memory.read? s.ibuf a)
      ∧ t.rxq = s.rxq ∧ t.cfg = s.cfg ∧ t.inbox = s.inbox ∧ ∃ k, t.txq = s.txq.drop k

/-! ### PARSE -/

/-- A buffer shorter than a header completes with SHORT_BUFFER and RESUBMIT and changes nothing (44_parser.md R181, 60_exceptions.md
R212). -/
def Obligations.ShortBufferResubmits : Prop :=
  ∀ (s : State) (len : Half), s.pvalid = true → s.cfg.wf = true → len.toNat < 2 →
    exec (.parse len) s = .next { s with reply := some (.completion 0x0402#16) }

/-- PARSE forwards exactly the bytes that are not in the first two of their packet, in buffer order, and takes the status of the
headers: line status the OR of all masked line bytes, RI the OR over all headers, CTS, DSR and DCD from the last header (44_parser.md
R182, R183, R185; 30_encoding.md R76, R77). A trailing single byte is dropped (R186). -/
def Obligations.ParseForwardsPayloadAndStatus : Prop :=
  ∀ (s : State) (len : Half), s.pvalid = true → s.cfg.wf = true → 2 ≤ len.toNat → len.toNat ≤ s.cfg.ibufCap →
    ∃ t : State, exec (.parse len) s = .next t
      ∧ t.rxq = s.rxq ++ (payloadOffsets s.cfg.inMaxpkt len.toNat).map (readIbuf s)
      ∧ t.svalid = true
      ∧ (∀ b, b < 8 → t.stLine.getLsbD b
          = (headerOffsets s.cfg.inMaxpkt len.toNat).any (fun o => (readIbuf s (o + 1) &&& s.cfg.maskOf s.gen).getLsbD b))
      ∧ t.stModem.getLsbD 0 = (readIbuf s (lastHeaderOffset s.cfg.inMaxpkt len.toNat)).getLsbD 4
      ∧ t.stModem.getLsbD 1 = (readIbuf s (lastHeaderOffset s.cfg.inMaxpkt len.toNat)).getLsbD 5
      ∧ t.stModem.getLsbD 2 = (headerOffsets s.cfg.inMaxpkt len.toNat).any (fun o => (readIbuf s o).getLsbD 6)
      ∧ t.stModem.getLsbD 3 = (readIbuf s (lastHeaderOffset s.cfg.inMaxpkt len.toNat)).getLsbD 7

/-- The number of bytes PARSE appends: LEN less two a header, less one for a trailing byte, with the number of headers of R187
(44_parser.md R186, R187). -/
def Obligations.ParseByteCount : Prop :=
  ∀ (s : State) (len : Half), s.pvalid = true → s.cfg.wf = true → 2 ≤ len.toNat → len.toNat ≤ s.cfg.ibufCap →
    ∃ t : State, exec (.parse len) s = .next t
      ∧ t.rxq.length + 2 * headerCount s.cfg.inMaxpkt len.toNat + (if len.toNat % s.cfg.inMaxpkt = 1 then 1 else 0)
        = s.rxq.length + len.toNat

/-- The document's two-header property: with IN_MAXPKT = 12 a buffer of 19 bytes gives 15 payload bytes in order, line status A|B, RI
of either header, the other modem bits of the second (44_parser.md R188). -/
def Obligations.TwoHeaderBuffer : Prop :=
  ∀ s : State, s.pvalid = true → s.cfg.inMaxpkt = 12 → 19 ≤ s.cfg.ibufCap →
    ∃ t : State, exec (.parse 19#16) s = .next t
      ∧ t.rxq = s.rxq ++ ((List.range 10).map (fun i => readIbuf s (2 + i)) ++ (List.range 5).map (fun i => readIbuf s (14 + i)))
      ∧ t.stLine = (readIbuf s 1 ||| readIbuf s 13) &&& s.cfg.maskOf s.gen
      ∧ t.stModem.getLsbD 2 = ((readIbuf s 0).getLsbD 6 || (readIbuf s 12).getLsbD 6)
      ∧ t.stModem.getLsbD 0 = (readIbuf s 12).getLsbD 4 ∧ t.stModem.getLsbD 1 = (readIbuf s 12).getLsbD 5
      ∧ t.stModem.getLsbD 3 = (readIbuf s 12).getLsbD 7

/-- StatusTracker: after PARSE it holds the status just parsed, and NOTIFY is 0 exactly when a status had been recorded and both
parts of it are the same (44_parser.md R184). -/
def Obligations.NotifyExactlyOnChange : Prop :=
  ∀ (s : State) (len : Half), s.pvalid = true → s.cfg.wf = true → 2 ≤ len.toNat → len.toNat ≤ s.cfg.ibufCap →
    ∃ t : State, exec (.parse len) s = .next t
      ∧ t.svalid = true ∧ t.stModem = parsedModem s len.toNat ∧ t.stLine = (parsed s len.toNat).lsrAcc
      ∧ t.reply = some (.completion
          (if s.svalid = true ∧ s.stModem = parsedModem s len.toNat ∧ s.stLine = (parsed s len.toNat).lsrAcc then 0x0000#16
            else 0x0800#16))

/-- Repeating a PARSE of the same host-written bytes produces no further notification and no status change (44_parser.md R184). -/
def Obligations.RepeatedStatusIsSilent : Prop :=
  ∀ (s t : State) (len : Half), s.pvalid = true → s.cfg.wf = true → 2 ≤ len.toNat → len.toNat ≤ s.cfg.ibufCap →
    ibufFilled s len.toNat → exec (.parse len) s = .next t →
    ∃ u : State, exec (.parse len) t = .next u ∧ u.reply = some (.completion 0x0000#16) ∧ u.stModem = t.stModem
      ∧ u.stLine = t.stLine

/-- The frame of PARSE: no register but the tracker's, no byte of either buffer, not TXQ; what RXQ held stays at its front (44_parser.md
R185, 20_memory.md R42). -/
def Obligations.ParseFrame : Prop :=
  ∀ (s t : State) (len : Half), exec (.parse len) s = .next t →
    (∀ n, n < 13 ∨ n = 16 → registerValue t n = registerValue s n)
      ∧ (∀ a, Memory.read? t.ibuf a = Memory.read? s.ibuf a) ∧ (∀ a, Memory.read? t.obuf a = Memory.read? s.obuf a)
      ∧ t.txq = s.txq ∧ t.cfg = s.cfg ∧ t.inbox = s.inbox ∧ s.rxq <+: t.rxq

/-- PARSE depends on nothing but `IBUF[0 .. LEN-1]`: two states that agree but for the rest of IBUF and for unspecified bytes end in
the same registers, the same RXQ and the same completion, once the host has filled those bytes (20_memory.md R42, R52). -/
def Obligations.ParseSeesOnlyItsBuffer : Prop :=
  ∀ (s : State) (ibuf' : List Host.Cell) (draws' : Nat) (len : Half), ibufFilled s len.toNat →
    (∀ a, a < len.toNat → Memory.read? ibuf' a = Memory.read? s.ibuf a) →
    ∃ t t' : State, exec (.parse len) s = .next t ∧ exec (.parse len) { s with ibuf := ibuf', draws := draws' } = .next t'
      ∧ t'.reply = t.reply ∧ t'.rxq = t.rxq ∧ sameRegisters t t'

/-! ### The host port -/

/-- The host's queue and buffer actions: append at the back of TXQ, write a byte of IBUF, consume from the front of RXQ; nothing else
changes (20_memory.md R51). -/
def Obligations.HostMovesBytes : Prop :=
  ∀ (s : State) (rest : List HostAction), s.cfg.wf = true →
    (∀ bytes, s.inbox = .appendTx bytes :: rest →
      step s = .next { s with inbox := rest, reply := none, txq := s.txq ++ bytes })
    ∧ (∀ offset b, s.inbox = .writeIbuf offset b :: rest → offset < s.cfg.ibufCap →
      ∃ t, step s = .next t ∧ t = { s with inbox := rest, reply := none, ibuf := t.ibuf }
        ∧ ∀ a, Memory.read? t.ibuf a = if a = offset then some b else Memory.read? s.ibuf a)
    ∧ (∀ front back, s.inbox = .consumeRx front.length :: rest → s.rxq = front ++ back →
      step s = .next { s with inbox := rest, reply := some (.bytes front), rxq := back })

/-- What each register number reads as: the register's bits at their places in the low end, the rest zero; no register above 16
(10_state.md R13 to R18). That a read is 16 bits wide is the model's choice (log 4). -/
def Obligations.RegisterReads : Prop :=
  ∀ s : State,
    registerValue s 0 = some (BitVec.ofNat 16 (s.pvalid.toNat + 2 * s.warn.toNat))
    ∧ registerValue s 1 = some (match s.gen with
        | .g0 => 0#16 | .g1 => 1#16 | .g2 => 2#16 | .g3 => 3#16 | .g4 => 4#16 | .g5 => 5#16 | .g6 => 6#16 | .g7 => 7#16)
    ∧ registerValue s 2 = some (BitVec.ofNat 16 (s.hindex.toNat + 2 * s.clk12m.toNat))
    ∧ registerValue s 3 = some (BitVec.ofNat 16 s.hdrlen.toNat) ∧ registerValue s 4 = some (BitVec.ofNat 16 s.portno.toNat)
    ∧ registerValue s 5 = some s.baudLo ∧ registerValue s 6 = some s.baudHi ∧ registerValue s 7 = some s.lcw
    ∧ registerValue s 8 = some (BitVec.ofNat 16 s.flowSel.toNat) ∧ registerValue s 9 = some (BitVec.ofNat 16 s.xon.toNat)
    ∧ registerValue s 10 = some (BitVec.ofNat 16 s.xoff.toNat) ∧ registerValue s 11 = some (BitVec.ofNat 16 s.wvalid.toNat)
    ∧ registerValue s 12 = some s.lastLcw ∧ registerValue s 13 = some (BitVec.ofNat 16 s.stModem.toNat)
    ∧ registerValue s 14 = some (BitVec.ofNat 16 s.stLine.toNat) ∧ registerValue s 15 = some (BitVec.ofNat 16 s.svalid.toNat)
    ∧ registerValue s 16 = some s.olen ∧ ∀ n, 16 < n → registerValue s n = none

/-- Host reads: register n hands over its value, `OBUF[i]` the byte of OBUF, which below OLEN is the one FRAME left there; nothing
but the reply changes, and the same read again hands over the same (20_memory.md R45, R51; 10_state.md R13). That a repeated read
of an unspecified byte agrees rests on which reads are one draw, the model's choice (log 6). -/
def Obligations.HostReadsHaveNoSideEffect : Prop :=
  ∀ (s : State) (rest : List HostAction), s.cfg.wf = true →
    (∀ n, n ≤ 16 → s.inbox = .readReg n :: .readReg n :: rest →
      ∃ v, registerValue s n = some v
        ∧ step s = .next { s with inbox := .readReg n :: rest, reply := some (.register v) }
        ∧ step { s with inbox := .readReg n :: rest, reply := some (.register v) }
          = .next { s with inbox := rest, reply := some (.register v) })
    ∧ (∀ i, i < s.cfg.obufCap → s.inbox = .readObuf i :: .readObuf i :: rest →
      (∀ b, i < s.olen.toNat → Memory.read? s.obuf i = some b → readObuf s i = b)
        ∧ step s = .next { s with inbox := .readObuf i :: rest, reply := some (.byte (readObuf s i)) }
        ∧ step { s with inbox := .readObuf i :: rest, reply := some (.byte (readObuf s i)) }
          = .next { s with inbox := rest, reply := some (.byte (readObuf s i)) })

/-- Reset, whatever came before: the table of 10_state.md R23 under the same parameters, no completion (70_reset_and_hazards.md R240,
R241). -/
def Obligations.ResetActionResets : Prop :=
  ∀ (s : State) (rest : List HostAction), s.cfg.wf = true → s.inbox = .reset :: rest →
    ∃ t, step s = .next t ∧ t = { State.resetWith s.cfg with inbox := rest, draws := t.draws } ∧ t.reply = none
      ∧ sameRegisters (State.resetWith s.cfg) t

/-- With no host action at hand USFP waits: nothing changes but that the last completion is no longer shown (70_reset_and_hazards.md
R242, 60_exceptions.md R216). -/
def Obligations.WaitsForTheHost : Prop :=
  ∀ s : State, s.cfg.wf = true → s.inbox = [] → step s = .next { s with reply := none }
end

