-- ==== Sys2Proof/Laws/Baud.lean ====
section
/-! SUPPORT. What EncodeBaud can answer, said once, and the facts about its steps that every claim about speeds needs. -/

namespace Sys2Proof.Machine

/-- On the divisor classes a pair comes out exactly when both checks pass, and it is the packed divisor (41_baud.md R114). -/
theorem encodeBaud_eq_some_iff (p : Params) (cls : GenClass) (hindex clk12m : Bool) (speed : Nat) (r : Half × Half)
    (hc : cls ≠ .fixed) :
    encodeBaud p cls hindex clk12m speed = some r ↔
      speedInRange (clockOf (fastClock clk12m speed)) speed = true ∧
      withinTolerance (clockOf (fastClock clk12m speed) * 8
        / divisorEighths p.roundoff cls (clockOf (fastClock clk12m speed)) speed) speed = true ∧
      r = splitDivisor hindex (packDivisor
        (repack p.int1Policy (divisorEighths p.roundoff cls (clockOf (fastClock clk12m speed)) speed)).1
        (repack p.int1Policy (divisorEighths p.roundoff cls (clockOf (fastClock clk12m speed)) speed)).2
        (fastClock clk12m speed)) := by
  simp only [encodeBaud, hc, if_false, encodeBaudFractional]
  split
  · rename_i h1
    split
    · rename_i h2
      rw [Option.some.injEq]
      exact ⟨fun h => ⟨h1, h2, h.symm⟩, fun h => h.2.2.symm⟩
    · rename_i h2
      exact ⟨(fun h => nomatch h), (fun h => absurd h.2.1 h2)⟩
  · rename_i h1
    exact ⟨(fun h => nomatch h), (fun h => absurd h.1 h1)⟩

/-- An entry of ROUNDOFF lies in -3 .. 4 (00_scope.md R6). -/
theorem roundoff_range (p : Params) (h : p.wf = true) (n : Nat) (hn : n < 16) :
    -3 ≤ p.roundoff.getD n 0 ∧ p.roundoff.getD n 0 ≤ 4 := by
  simp only [Params.wf, Bool.and_eq_true, beq_iff_eq, List.all_eq_true, decide_eq_true_eq] at h
  obtain ⟨⟨⟨_, hl⟩, ha⟩, _⟩ := h
  rw [List.getD_eq_getElem _ _ (by omega)]
  exact ha _ (List.getElem_mem _)

/-- The sixteenths of step 3 are at least 16 for every speed step 2 lets through (41_baud.md R104). -/
theorem sixteenths_ge (clk speed : Nat) (h0 : 0 < speed) (h : speed ≤ clk) : 16 ≤ clk * 16 / speed := by
  rw [Nat.le_div_iff_mul_le h0]
  omega

/-- The fast clock is chosen only from 1200 on (41_baud.md R102). -/
theorem fastClock_eq_true {clk12m : Bool} {speed : Nat} (h : fastClock clk12m speed = true) : clk12m = true ∧ 1200 ≤ speed := by
  simpa [fastClock] using h

/-- A fraction code has three bits (30_encoding.md R72). -/
theorem fracCode_lt (f : Nat) (h : f < 8) : fracCode f < 8 := by
  interval_cases f <;> decide

/-- The fraction table is a permutation: the index of a code is the index it came from (30_encoding.md R72). -/
theorem fracIndex_fracCode (f : Nat) (h : f < 8) : fracIndex (fracCode f) = f := by
  interval_cases f <;> decide

/-- Only the fraction 0 has code 0 (30_encoding.md R72). -/
theorem fracCode_eq_zero_iff (f : Nat) (h : f < 8) : fracCode f = 0 ↔ f = 0 := by
  interval_cases f <;> decide

end Sys2Proof.Machine
end

