-- ==== Sys2Proof/Laws/Encoding.lean ====
section
/-! SUPPORT. Bit by bit what the decoder's and the encoder's field operations read and place. -/

namespace Sys2Proof

/-- A bit of a placed field: the field's bit inside its place, 0 outside. -/
theorem getLsbD_placeField {w : Nat} (v : BitVec w) (lo i : Nat) (h : i < 64) :
    (placeField v lo).getLsbD i = (decide (lo ≤ i) && v.getLsbD (i - lo)) := by
  unfold placeField
  rw [BitVec.getLsbD_shiftLeft, BitVec.getLsbD_setWidth]
  by_cases hl : lo ≤ i
  · simp [h, hl, Nat.not_lt.2 hl, Nat.lt_of_le_of_lt (Nat.sub_le i lo) h]
  · simp [hl, Nat.lt_of_not_le hl]

/-- A bit of a field is the descriptor's bit that many places above the field's low end. -/
theorem getLsbD_fieldOf (d : Descriptor) (lo w i : Nat) : (fieldOf d lo w).getLsbD i = (decide (i < w) && d.getLsbD (lo + i)) := by
  simp [fieldOf, BitVec.getLsbD_extractLsb']

/-- The opcode field is the field at [63:60]. -/
theorem opcOf_eq_fieldOf (d : Descriptor) : opcOf d = fieldOf d 60 4 := rfl

/-- A field is zero exactly when its bits are. -/
theorem fieldOf_eq_zero_iff (d : Descriptor) (lo w : Nat) : fieldOf d lo w = 0#w ↔ ∀ i, i < w → d.getLsbD (lo + i) = false := by
  have key : ∀ i, i < w → (fieldOf d lo w).getLsbD i = d.getLsbD (lo + i) := fun i hi => by
    rw [getLsbD_fieldOf, decide_eq_true hi, Bool.true_and]
  constructor
  · intro h i hi
    rw [← key i hi, h, BitVec.getLsbD_zero]
  · intro h
    refine BitVec.eq_of_getLsbD_eq fun i hi => ?_
    rw [key i hi, h i hi, BitVec.getLsbD_zero]

/-- A field of two joined descriptors joins the fields. -/
theorem fieldOf_or (a b : Descriptor) (lo w : Nat) : fieldOf (a ||| b) lo w = fieldOf a lo w ||| fieldOf b lo w := by
  refine BitVec.eq_of_getLsbD_eq fun i hi => ?_
  simp only [getLsbD_fieldOf, BitVec.getLsbD_or, hi, decide_true, Bool.true_and]

/-- A field read at the place it was put gives it back. -/
theorem fieldOf_placeField {w : Nat} (v : BitVec w) (lo : Nat) (h : lo + w ≤ 64) : fieldOf (placeField v lo) lo w = v := by
  refine BitVec.eq_of_getLsbD_eq fun i hi => ?_
  rw [getLsbD_fieldOf, getLsbD_placeField _ _ _ (by omega), Nat.add_sub_cancel_left]
  simp [hi]

/-- A field read outside the place a value was put is 0. -/
theorem fieldOf_placeField_apart {w' : Nat} (v : BitVec w') (lo' lo w : Nat) (h : lo + w ≤ 64)
    (ha : lo' + w' ≤ lo ∨ lo + w ≤ lo') : fieldOf (placeField v lo') lo w = 0#w := by
  refine (fieldOf_eq_zero_iff _ _ _).2 fun i hi => ?_
  rw [getLsbD_placeField _ _ _ (by omega)]
  rcases ha with ha | ha
  · rw [BitVec.getLsbD_of_ge _ _ (by omega), Bool.and_false]
  · rw [decide_eq_false (by omega), Bool.false_and]

end Sys2Proof
end

