-- ==== Sys2Proof/Laws/Memory.lean ====
section
/-! SUPPORT. The laws of the buffers: a read after a write, and that every memory operation keeps the canonical form. -/

namespace Sys2Proof.Machine

@[simp] theorem Memory.read?_nil (x : Nat) : Memory.read? [] x = none := rfl

/-- A read after a write: the byte written, or what was there. -/
theorem Memory.read?_write (m : List Host.Cell) (x y : Nat) (v : Byte) :
    Memory.read? (Memory.write m x v) y = if y = x then some v else Memory.read? m y := by
  induction m with
  | nil => simp only [Memory.write, Memory.read?, eq_comm]
  | cons c m ih =>
    obtain ⟨a, b⟩ := c
    simp only [Memory.write]
    split
    · simp only [Memory.read?, eq_comm (a := x)]
    · split
      · rename_i h
        subst h
        simp only [Memory.read?, eq_comm (a := y)]
        split <;> rfl
      · simp only [Memory.read?, ih]
        split
        · rename_i h1 h2 h3
          rw [if_neg (by omega)]
        · rfl

/-- A read after a run of writes: the run's byte inside it, what was there outside it. -/
theorem Memory.read?_writeRun (bs : List Byte) : ∀ (m : List Host.Cell) (x y : Nat),
    Memory.read? (Memory.writeRun m x bs) y = if x ≤ y ∧ y < x + bs.length then bs[y - x]? else Memory.read? m y := by
  induction bs with
  | nil =>
    intro m x y
    rw [if_neg (by simp)]
    rfl
  | cons b bs ih =>
    intro m x y
    rw [Memory.writeRun, ih, Memory.read?_write]
    by_cases hy : y = x
    · subst hy
      rw [if_neg (by omega), if_pos rfl, if_pos (by simp)]
      simp
    · rw [if_neg hy]
      by_cases hin : x + 1 ≤ y ∧ y < x + 1 + bs.length
      · rw [if_pos hin, if_pos (by simp only [List.length_cons]; omega),
          show y - x = (y - (x + 1)) + 1 by omega, List.getElem?_cons_succ]
      · rw [if_neg hin, if_neg (by simp only [List.length_cons]; omega)]

/-- The canonical form, one cell at a time. -/
theorem Memory.wf_cons (a : Nat) (b : Byte) (m : List Host.Cell) :
    Memory.wf ((a, b) :: m) = true ↔ (∀ c ∈ m.head?, a < c.1) ∧ Memory.wf m = true := by
  cases m with
  | nil => simp [Memory.wf]
  | cons c m => simp [Memory.wf]

/-- The first offset after a write is the old first one or the one written. -/
theorem Memory.head?_write (m : List Host.Cell) (x : Nat) (v : Byte) (c : Host.Cell) (h : c ∈ (Memory.write m x v).head?) :
    c.1 = x ∨ ∃ d ∈ m.head?, d.1 = c.1 := by
  cases m with
  | nil =>
    simp only [Memory.write, List.head?_cons, Option.mem_def, Option.some.injEq] at h
    subst h
    exact .inl rfl
  | cons d m =>
    obtain ⟨a, b⟩ := d
    simp only [Memory.write] at h
    split at h
    · simp only [List.head?_cons, Option.mem_def, Option.some.injEq] at h
      subst h
      exact .inl rfl
    · split at h <;>
      · simp only [List.head?_cons, Option.mem_def, Option.some.injEq] at h
        subst h
        exact .inr ⟨(a, b), rfl, rfl⟩

/-- A write keeps the canonical form. -/
theorem Memory.wf_write (m : List Host.Cell) (x : Nat) (v : Byte) (h : Memory.wf m = true) :
    Memory.wf (Memory.write m x v) = true := by
  induction m with
  | nil => rfl
  | cons c m ih =>
    obtain ⟨a, b⟩ := c
    rw [Memory.wf_cons] at h
    simp only [Memory.write]
    split
    · exact (Memory.wf_cons _ _ _).2 ⟨by simpa, (Memory.wf_cons _ _ _).2 h⟩
    · split
      · exact (Memory.wf_cons _ _ _).2 h
      · refine (Memory.wf_cons _ _ _).2 ⟨fun d hd => ?_, ih h.2⟩
        rcases Memory.head?_write _ _ _ _ hd with he | ⟨e, he, hde⟩
        · omega
        · have := h.1 e he
          omega

/-- A run of writes keeps the canonical form. -/
theorem Memory.wf_writeRun (bs : List Byte) : ∀ (m : List Host.Cell) (x : Nat), Memory.wf m = true →
    Memory.wf (Memory.writeRun m x bs) = true := by
  induction bs with
  | nil => intro m x h; exact h
  | cons b bs ih => intro m x h; exact ih _ _ (Memory.wf_write _ _ _ h)

/-- A write below the capacity keeps every offset below it. -/
theorem Memory.below_write (cap : Nat) (m : List Host.Cell) (x : Nat) (v : Byte) (hx : x < cap)
    (h : Memory.below cap m = true) : Memory.below cap (Memory.write m x v) = true := by
  induction m with
  | nil => simpa [Memory.below, Memory.write] using hx
  | cons c m ih =>
    obtain ⟨a, b⟩ := c
    simp only [Memory.below, List.all_cons, Bool.and_eq_true, decide_eq_true_eq] at h ih
    simp only [Memory.write]
    split
    · simpa [Memory.below] using ⟨hx, h.1, by simpa using h.2⟩
    · split
      · simpa [Memory.below] using ⟨h.1, by simpa using h.2⟩
      · simpa [Memory.below] using ⟨h.1, by simpa [Memory.below] using ih h.2⟩

/-- A run of writes inside the capacity keeps every offset below it. -/
theorem Memory.below_writeRun (cap : Nat) (bs : List Byte) : ∀ (m : List Host.Cell) (x : Nat), x + bs.length ≤ cap →
    Memory.below cap m = true → Memory.below cap (Memory.writeRun m x bs) = true := by
  induction bs with
  | nil => intro m x _ h; exact h
  | cons b bs ih =>
    intro m x hx h
    simp only [List.length_cons] at hx
    exact ih _ _ (by omega) (Memory.below_write _ _ _ _ (by omega) h)

/-- The memory of the state after reset has the canonical form. -/
theorem Memory.wf_reset (p : Params) : Memory.wf (State.resetWith p).obuf = true ∧ Memory.wf (State.resetWith p).ibuf = true :=
  ⟨rfl, rfl⟩

end Sys2Proof.Machine
end

