-- ==== Sys2Proof/Laws/Framer.lean ====
section
/-! SUPPORT. What the two framing disciplines can do, said once: bounds, what they write, what they take, and that the loop's fuel
is enough. -/

namespace Sys2Proof.Machine

/-- While the loop goes on, a chunk has 1 to 63 payload bytes, no more than are pending or fit (43_framer.md R162). -/
theorem chunkLength_bounds (cap used pending : Nat) (hs : 2 ≤ cap - used) (hp : 0 < pending) :
    1 ≤ chunkLength cap used pending ∧ chunkLength cap used pending ≤ 63 ∧ chunkLength cap used pending ≤ pending
      ∧ used + 1 + chunkLength cap used pending ≤ cap := by
  unfold chunkLength
  omega

/-- A round writes exactly its header and its payload. -/
theorem addChunk_run_length (cap : Nat) (portno : Byte) (f : Framed) (hs : 2 ≤ cap - f.used) (hp : 0 < f.txq.length) :
    f.used + (chunkHeader (chunkLength cap f.used f.txq.length) portno
      :: f.txq.take (chunkLength cap f.used f.txq.length)).length = (addChunk cap portno f).used := by
  have := chunkLength_bounds cap f.used f.txq.length hs hp
  simp only [List.length_cons, List.length_take, addChunk]
  omega

/-- An invariant of a round is an invariant of the loop. -/
theorem frameHeadered_induct (cap : Nat) (portno : Byte) (P : Framed → Prop)
    (hround : ∀ f, P f → 2 ≤ cap - f.used → 0 < f.txq.length → P (addChunk cap portno f)) :
    ∀ (fuel : Nat) (f : Framed), P f → P (frameHeadered cap portno fuel f) := by
  intro fuel
  induction fuel with
  | zero => intro f h; exact h
  | succ fuel ih =>
    intro f h
    rw [frameHeadered]
    split
    · rename_i hc
      exact ih _ (hround f h hc.1 hc.2)
    · exact h

/-- The loop never passes the capacity (43_framer.md R165). -/
theorem frameHeadered_used_le (cap : Nat) (portno : Byte) (fuel : Nat) (f : Framed) (h : f.used ≤ cap) :
    (frameHeadered cap portno fuel f).used ≤ cap :=
  frameHeadered_induct cap portno (fun g => g.used ≤ cap)
    (fun g _ hs hp => (chunkLength_bounds cap g.used g.txq.length hs hp).2.2.2) fuel f h

/-- With fuel for the space left, the loop ends with nothing pending or less than 2 bytes of space (43_framer.md R162, log 12). -/
theorem frameHeadered_done (cap : Nat) (portno : Byte) : ∀ (fuel : Nat) (f : Framed), cap - f.used ≤ fuel →
    (frameHeadered cap portno fuel f).txq = [] ∨ cap - (frameHeadered cap portno fuel f).used < 2 := by
  intro fuel
  induction fuel with
  | zero => intro f h; exact .inr (by rw [frameHeadered]; omega)
  | succ fuel ih =>
    intro f h
    rw [frameHeadered]
    split
    · rename_i hc
      have := chunkLength_bounds cap f.used f.txq.length hc.1 hc.2
      exact ih _ (by simp only [addChunk]; omega)
    · rename_i hc
      rcases Nat.eq_zero_or_pos f.txq.length with h0 | h0
      · exact .inl (List.length_eq_zero_iff.1 h0)
      · exact .inr (by omega)

/-- What a loop started at offset 0 leaves: canonical form, nothing at or above the capacity, everything below `used` written, the
rest as before, and TXQ less its first bytes (20_memory.md R41). -/
structure Framed.Frames (cap : Nat) (obuf : List Host.Cell) (txq : List Byte) (f : Framed) : Prop where
  used_le : f.used ≤ cap
  wf      : Memory.wf obuf = true → Memory.wf f.obuf = true
  below   : Memory.below cap obuf = true → Memory.below cap f.obuf = true
  filled  : ∀ a, a < f.used → (Memory.read? f.obuf a).isSome = true
  above   : ∀ a, f.used ≤ a → Memory.read? f.obuf a = Memory.read? obuf a
  taken   : ∃ k, f.txq = txq.drop k

/-- A round keeps what the loop leaves. -/
theorem addChunk_frames (cap : Nat) (portno : Byte) (obuf : List Host.Cell) (txq : List Byte) (f : Framed)
    (h : f.Frames cap obuf txq) (hs : 2 ≤ cap - f.used) (hp : 0 < f.txq.length) :
    (addChunk cap portno f).Frames cap obuf txq := by
  have hb := chunkLength_bounds cap f.used f.txq.length hs hp
  have hl := addChunk_run_length cap portno f hs hp
  refine ⟨?_, fun hw => ?_, fun hw => ?_, fun a ha => ?_, fun a ha => ?_, ?_⟩
  · simp only [addChunk]
    omega
  · exact Memory.wf_writeRun _ _ _ (h.wf hw)
  · exact Memory.below_writeRun _ _ _ _ (by rw [hl]; simp only [addChunk]; omega) (h.below hw)
  · rw [addChunk, Memory.read?_writeRun, hl]
    split
    · rename_i hin
      rw [List.getElem?_eq_getElem (by omega)]
      rfl
    · exact h.filled a (by omega)
  · rw [addChunk, Memory.read?_writeRun, hl, if_neg (by omega)]
    exact h.above a (by simp only [addChunk] at ha; omega)
  · obtain ⟨k, hk⟩ := h.taken
    exact ⟨k + chunkLength cap f.used f.txq.length, by rw [addChunk, hk, List.drop_drop]⟩

/-- What headered framing leaves (43_framer.md R162, R165). -/
theorem frameHeadered_frames (cap : Nat) (portno : Byte) (fuel : Nat) (obuf : List Host.Cell) (txq : List Byte) :
    (frameHeadered cap portno fuel { used := 0, obuf := obuf, txq := txq }).Frames cap obuf txq :=
  frameHeadered_induct cap portno (fun f => f.Frames cap obuf txq) (fun f h hs hp => addChunk_frames cap portno obuf txq f h hs hp)
    fuel _ ⟨Nat.zero_le _, id, id, fun _ h => absurd h (Nat.not_lt_zero _), fun _ _ => rfl, 0, rfl⟩

/-- What headerless framing leaves (43_framer.md R161, R165). -/
theorem frameHeaderless_frames (cap : Nat) (obuf : List Host.Cell) (txq : List Byte) :
    (frameHeaderless cap obuf txq).Frames cap obuf txq := by
  have hl : (txq.take (min txq.length cap)).length = min txq.length cap := by
    rw [List.length_take]
    omega
  refine ⟨?_, fun h => Memory.wf_writeRun _ _ _ h, fun h => Memory.below_writeRun _ _ _ _ (by omega) h, fun a ha => ?_,
    fun a ha => ?_, _, rfl⟩
  · simp only [frameHeaderless]
    omega
  · simp only [frameHeaderless] at ha ⊢
    rw [Memory.read?_writeRun, if_pos (by omega), List.getElem?_eq_getElem (by omega)]
    rfl
  · simp only [frameHeaderless] at ha ⊢
    rw [Memory.read?_writeRun, if_neg (by omega)]

/-- What either discipline leaves (43_framer.md R166). -/
theorem framed_frames (s : State) : (framed s).Frames s.cfg.obufCap s.obuf s.txq := by
  unfold framed
  split
  · exact frameHeaderless_frames _ _ _
  · exact frameHeadered_frames _ _ _ _ _

end Sys2Proof.Machine
end

