-- ==== Sys2Proof/Laws/State.lean ====
section
/-! SUPPORT. What each named update of State does to each field, and the fields of the state after reset: one lemma per field per
update, true by rfl, so that no proof unfolds a record update. -/

namespace Sys2Proof.Machine

/-! ### State.setProfile -/

@[simp] theorem State.setProfile_pvalid (s : State) (g : Gen) (c : Caps) (h : BitVec 1) (p : Byte) (w : Bool) : (s.setProfile g c h p w).pvalid = true := rfl
@[simp] theorem State.setProfile_warn (s : State) (g : Gen) (c : Caps) (h : BitVec 1) (p : Byte) (w : Bool) : (s.setProfile g c h p w).warn = w := rfl
@[simp] theorem State.setProfile_gen (s : State) (g : Gen) (c : Caps) (h : BitVec 1) (p : Byte) (w : Bool) : (s.setProfile g c h p w).gen = g := rfl
@[simp] theorem State.setProfile_hindex (s : State) (g : Gen) (c : Caps) (h : BitVec 1) (p : Byte) (w : Bool) : (s.setProfile g c h p w).hindex = c.hindex := rfl
@[simp] theorem State.setProfile_clk12m (s : State) (g : Gen) (c : Caps) (h : BitVec 1) (p : Byte) (w : Bool) : (s.setProfile g c h p w).clk12m = c.clk12m := rfl
@[simp] theorem State.setProfile_hdrlen (s : State) (g : Gen) (c : Caps) (h : BitVec 1) (p : Byte) (w : Bool) : (s.setProfile g c h p w).hdrlen = h := rfl
@[simp] theorem State.setProfile_portno (s : State) (g : Gen) (c : Caps) (h : BitVec 1) (p : Byte) (w : Bool) : (s.setProfile g c h p w).portno = p := rfl
@[simp] theorem State.setProfile_baudLo (s : State) (g : Gen) (c : Caps) (h : BitVec 1) (p : Byte) (w : Bool) : (s.setProfile g c h p w).baudLo = s.baudLo := rfl
@[simp] theorem State.setProfile_baudHi (s : State) (g : Gen) (c : Caps) (h : BitVec 1) (p : Byte) (w : Bool) : (s.setProfile g c h p w).baudHi = s.baudHi := rfl
@[simp] theorem State.setProfile_lcw (s : State) (g : Gen) (c : Caps) (h : BitVec 1) (p : Byte) (w : Bool) : (s.setProfile g c h p w).lcw = s.lcw := rfl
@[simp] theorem State.setProfile_flowSel (s : State) (g : Gen) (c : Caps) (h : BitVec 1) (p : Byte) (w : Bool) : (s.setProfile g c h p w).flowSel = s.flowSel := rfl
@[simp] theorem State.setProfile_xon (s : State) (g : Gen) (c : Caps) (h : BitVec 1) (p : Byte) (w : Bool) : (s.setProfile g c h p w).xon = s.xon := rfl
@[simp] theorem State.setProfile_xoff (s : State) (g : Gen) (c : Caps) (h : BitVec 1) (p : Byte) (w : Bool) : (s.setProfile g c h p w).xoff = s.xoff := rfl
@[simp] theorem State.setProfile_wvalid (s : State) (g : Gen) (c : Caps) (h : BitVec 1) (p : Byte) (w : Bool) : (s.setProfile g c h p w).wvalid = s.wvalid := rfl
@[simp] theorem State.setProfile_lastLcw (s : State) (g : Gen) (c : Caps) (h : BitVec 1) (p : Byte) (w : Bool) : (s.setProfile g c h p w).lastLcw = s.lastLcw := rfl
@[simp] theorem State.setProfile_stModem (s : State) (g : Gen) (c : Caps) (h : BitVec 1) (p : Byte) (w : Bool) : (s.setProfile g c h p w).stModem = s.stModem := rfl
@[simp] theorem State.setProfile_stLine (s : State) (g : Gen) (c : Caps) (h : BitVec 1) (p : Byte) (w : Bool) : (s.setProfile g c h p w).stLine = s.stLine := rfl
@[simp] theorem State.setProfile_svalid (s : State) (g : Gen) (c : Caps) (h : BitVec 1) (p : Byte) (w : Bool) : (s.setProfile g c h p w).svalid = s.svalid := rfl
@[simp] theorem State.setProfile_olen (s : State) (g : Gen) (c : Caps) (h : BitVec 1) (p : Byte) (w : Bool) : (s.setProfile g c h p w).olen = s.olen := rfl
@[simp] theorem State.setProfile_obuf (s : State) (g : Gen) (c : Caps) (h : BitVec 1) (p : Byte) (w : Bool) : (s.setProfile g c h p w).obuf = s.obuf := rfl
@[simp] theorem State.setProfile_ibuf (s : State) (g : Gen) (c : Caps) (h : BitVec 1) (p : Byte) (w : Bool) : (s.setProfile g c h p w).ibuf = s.ibuf := rfl
@[simp] theorem State.setProfile_txq (s : State) (g : Gen) (c : Caps) (h : BitVec 1) (p : Byte) (w : Bool) : (s.setProfile g c h p w).txq = s.txq := rfl
@[simp] theorem State.setProfile_rxq (s : State) (g : Gen) (c : Caps) (h : BitVec 1) (p : Byte) (w : Bool) : (s.setProfile g c h p w).rxq = s.rxq := rfl
@[simp] theorem State.setProfile_cfg (s : State) (g : Gen) (c : Caps) (h : BitVec 1) (p : Byte) (w : Bool) : (s.setProfile g c h p w).cfg = s.cfg := rfl
@[simp] theorem State.setProfile_inbox (s : State) (g : Gen) (c : Caps) (h : BitVec 1) (p : Byte) (w : Bool) : (s.setProfile g c h p w).inbox = s.inbox := rfl
@[simp] theorem State.setProfile_reply (s : State) (g : Gen) (c : Caps) (h : BitVec 1) (p : Byte) (w : Bool) : (s.setProfile g c h p w).reply = s.reply := rfl
@[simp] theorem State.setProfile_draws (s : State) (g : Gen) (c : Caps) (h : BitVec 1) (p : Byte) (w : Bool) : (s.setProfile g c h p w).draws = s.draws := rfl

/-! ### State.setWire -/

@[simp] theorem State.setWire_pvalid (s : State) (lo hi v : Half) (f : FlowWire) : (s.setWire lo hi v f).pvalid = s.pvalid := rfl
@[simp] theorem State.setWire_warn (s : State) (lo hi v : Half) (f : FlowWire) : (s.setWire lo hi v f).warn = s.warn := rfl
@[simp] theorem State.setWire_gen (s : State) (lo hi v : Half) (f : FlowWire) : (s.setWire lo hi v f).gen = s.gen := rfl
@[simp] theorem State.setWire_hindex (s : State) (lo hi v : Half) (f : FlowWire) : (s.setWire lo hi v f).hindex = s.hindex := rfl
@[simp] theorem State.setWire_clk12m (s : State) (lo hi v : Half) (f : FlowWire) : (s.setWire lo hi v f).clk12m = s.clk12m := rfl
@[simp] theorem State.setWire_hdrlen (s : State) (lo hi v : Half) (f : FlowWire) : (s.setWire lo hi v f).hdrlen = s.hdrlen := rfl
@[simp] theorem State.setWire_portno (s : State) (lo hi v : Half) (f : FlowWire) : (s.setWire lo hi v f).portno = s.portno := rfl
@[simp] theorem State.setWire_baudLo (s : State) (lo hi v : Half) (f : FlowWire) : (s.setWire lo hi v f).baudLo = lo := rfl
@[simp] theorem State.setWire_baudHi (s : State) (lo hi v : Half) (f : FlowWire) : (s.setWire lo hi v f).baudHi = hi := rfl
@[simp] theorem State.setWire_lcw (s : State) (lo hi v : Half) (f : FlowWire) : (s.setWire lo hi v f).lcw = v := rfl
@[simp] theorem State.setWire_flowSel (s : State) (lo hi v : Half) (f : FlowWire) : (s.setWire lo hi v f).flowSel = f.sel := rfl
@[simp] theorem State.setWire_xon (s : State) (lo hi v : Half) (f : FlowWire) : (s.setWire lo hi v f).xon = f.xon := rfl
@[simp] theorem State.setWire_xoff (s : State) (lo hi v : Half) (f : FlowWire) : (s.setWire lo hi v f).xoff = f.xoff := rfl
@[simp] theorem State.setWire_wvalid (s : State) (lo hi v : Half) (f : FlowWire) : (s.setWire lo hi v f).wvalid = true := rfl
@[simp] theorem State.setWire_lastLcw (s : State) (lo hi v : Half) (f : FlowWire) : (s.setWire lo hi v f).lastLcw = v := rfl
@[simp] theorem State.setWire_stModem (s : State) (lo hi v : Half) (f : FlowWire) : (s.setWire lo hi v f).stModem = s.stModem := rfl
@[simp] theorem State.setWire_stLine (s : State) (lo hi v : Half) (f : FlowWire) : (s.setWire lo hi v f).stLine = s.stLine := rfl
@[simp] theorem State.setWire_svalid (s : State) (lo hi v : Half) (f : FlowWire) : (s.setWire lo hi v f).svalid = s.svalid := rfl
@[simp] theorem State.setWire_olen (s : State) (lo hi v : Half) (f : FlowWire) : (s.setWire lo hi v f).olen = s.olen := rfl
@[simp] theorem State.setWire_obuf (s : State) (lo hi v : Half) (f : FlowWire) : (s.setWire lo hi v f).obuf = s.obuf := rfl
@[simp] theorem State.setWire_ibuf (s : State) (lo hi v : Half) (f : FlowWire) : (s.setWire lo hi v f).ibuf = s.ibuf := rfl
@[simp] theorem State.setWire_txq (s : State) (lo hi v : Half) (f : FlowWire) : (s.setWire lo hi v f).txq = s.txq := rfl
@[simp] theorem State.setWire_rxq (s : State) (lo hi v : Half) (f : FlowWire) : (s.setWire lo hi v f).rxq = s.rxq := rfl
@[simp] theorem State.setWire_cfg (s : State) (lo hi v : Half) (f : FlowWire) : (s.setWire lo hi v f).cfg = s.cfg := rfl
@[simp] theorem State.setWire_inbox (s : State) (lo hi v : Half) (f : FlowWire) : (s.setWire lo hi v f).inbox = s.inbox := rfl
@[simp] theorem State.setWire_reply (s : State) (lo hi v : Half) (f : FlowWire) : (s.setWire lo hi v f).reply = s.reply := rfl
@[simp] theorem State.setWire_draws (s : State) (lo hi v : Half) (f : FlowWire) : (s.setWire lo hi v f).draws = s.draws := rfl

/-! ### State.setLastLcw -/

@[simp] theorem State.setLastLcw_pvalid (s : State) (v : Half) : (s.setLastLcw v).pvalid = s.pvalid := rfl
@[simp] theorem State.setLastLcw_warn (s : State) (v : Half) : (s.setLastLcw v).warn = s.warn := rfl
@[simp] theorem State.setLastLcw_gen (s : State) (v : Half) : (s.setLastLcw v).gen = s.gen := rfl
@[simp] theorem State.setLastLcw_hindex (s : State) (v : Half) : (s.setLastLcw v).hindex = s.hindex := rfl
@[simp] theorem State.setLastLcw_clk12m (s : State) (v : Half) : (s.setLastLcw v).clk12m = s.clk12m := rfl
@[simp] theorem State.setLastLcw_hdrlen (s : State) (v : Half) : (s.setLastLcw v).hdrlen = s.hdrlen := rfl
@[simp] theorem State.setLastLcw_portno (s : State) (v : Half) : (s.setLastLcw v).portno = s.portno := rfl
@[simp] theorem State.setLastLcw_baudLo (s : State) (v : Half) : (s.setLastLcw v).baudLo = s.baudLo := rfl
@[simp] theorem State.setLastLcw_baudHi (s : State) (v : Half) : (s.setLastLcw v).baudHi = s.baudHi := rfl
@[simp] theorem State.setLastLcw_lcw (s : State) (v : Half) : (s.setLastLcw v).lcw = s.lcw := rfl
@[simp] theorem State.setLastLcw_flowSel (s : State) (v : Half) : (s.setLastLcw v).flowSel = s.flowSel := rfl
@[simp] theorem State.setLastLcw_xon (s : State) (v : Half) : (s.setLastLcw v).xon = s.xon := rfl
@[simp] theorem State.setLastLcw_xoff (s : State) (v : Half) : (s.setLastLcw v).xoff = s.xoff := rfl
@[simp] theorem State.setLastLcw_wvalid (s : State) (v : Half) : (s.setLastLcw v).wvalid = s.wvalid := rfl
@[simp] theorem State.setLastLcw_lastLcw (s : State) (v : Half) : (s.setLastLcw v).lastLcw = v := rfl
@[simp] theorem State.setLastLcw_stModem (s : State) (v : Half) : (s.setLastLcw v).stModem = s.stModem := rfl
@[simp] theorem State.setLastLcw_stLine (s : State) (v : Half) : (s.setLastLcw v).stLine = s.stLine := rfl
@[simp] theorem State.setLastLcw_svalid (s : State) (v : Half) : (s.setLastLcw v).svalid = s.svalid := rfl
@[simp] theorem State.setLastLcw_olen (s : State) (v : Half) : (s.setLastLcw v).olen = s.olen := rfl
@[simp] theorem State.setLastLcw_obuf (s : State) (v : Half) : (s.setLastLcw v).obuf = s.obuf := rfl
@[simp] theorem State.setLastLcw_ibuf (s : State) (v : Half) : (s.setLastLcw v).ibuf = s.ibuf := rfl
@[simp] theorem State.setLastLcw_txq (s : State) (v : Half) : (s.setLastLcw v).txq = s.txq := rfl
@[simp] theorem State.setLastLcw_rxq (s : State) (v : Half) : (s.setLastLcw v).rxq = s.rxq := rfl
@[simp] theorem State.setLastLcw_cfg (s : State) (v : Half) : (s.setLastLcw v).cfg = s.cfg := rfl
@[simp] theorem State.setLastLcw_inbox (s : State) (v : Half) : (s.setLastLcw v).inbox = s.inbox := rfl
@[simp] theorem State.setLastLcw_reply (s : State) (v : Half) : (s.setLastLcw v).reply = s.reply := rfl
@[simp] theorem State.setLastLcw_draws (s : State) (v : Half) : (s.setLastLcw v).draws = s.draws := rfl

/-! ### State.setTracker -/

@[simp] theorem State.setTracker_pvalid (s : State) (m : BitVec 4) (l : Byte) : (s.setTracker m l).pvalid = s.pvalid := rfl
@[simp] theorem State.setTracker_warn (s : State) (m : BitVec 4) (l : Byte) : (s.setTracker m l).warn = s.warn := rfl
@[simp] theorem State.setTracker_gen (s : State) (m : BitVec 4) (l : Byte) : (s.setTracker m l).gen = s.gen := rfl
@[simp] theorem State.setTracker_hindex (s : State) (m : BitVec 4) (l : Byte) : (s.setTracker m l).hindex = s.hindex := rfl
@[simp] theorem State.setTracker_clk12m (s : State) (m : BitVec 4) (l : Byte) : (s.setTracker m l).clk12m = s.clk12m := rfl
@[simp] theorem State.setTracker_hdrlen (s : State) (m : BitVec 4) (l : Byte) : (s.setTracker m l).hdrlen = s.hdrlen := rfl
@[simp] theorem State.setTracker_portno (s : State) (m : BitVec 4) (l : Byte) : (s.setTracker m l).portno = s.portno := rfl
@[simp] theorem State.setTracker_baudLo (s : State) (m : BitVec 4) (l : Byte) : (s.setTracker m l).baudLo = s.baudLo := rfl
@[simp] theorem State.setTracker_baudHi (s : State) (m : BitVec 4) (l : Byte) : (s.setTracker m l).baudHi = s.baudHi := rfl
@[simp] theorem State.setTracker_lcw (s : State) (m : BitVec 4) (l : Byte) : (s.setTracker m l).lcw = s.lcw := rfl
@[simp] theorem State.setTracker_flowSel (s : State) (m : BitVec 4) (l : Byte) : (s.setTracker m l).flowSel = s.flowSel := rfl
@[simp] theorem State.setTracker_xon (s : State) (m : BitVec 4) (l : Byte) : (s.setTracker m l).xon = s.xon := rfl
@[simp] theorem State.setTracker_xoff (s : State) (m : BitVec 4) (l : Byte) : (s.setTracker m l).xoff = s.xoff := rfl
@[simp] theorem State.setTracker_wvalid (s : State) (m : BitVec 4) (l : Byte) : (s.setTracker m l).wvalid = s.wvalid := rfl
@[simp] theorem State.setTracker_lastLcw (s : State) (m : BitVec 4) (l : Byte) : (s.setTracker m l).lastLcw = s.lastLcw := rfl
@[simp] theorem State.setTracker_stModem (s : State) (m : BitVec 4) (l : Byte) : (s.setTracker m l).stModem = m := rfl
@[simp] theorem State.setTracker_stLine (s : State) (m : BitVec 4) (l : Byte) : (s.setTracker m l).stLine = l := rfl
@[simp] theorem State.setTracker_svalid (s : State) (m : BitVec 4) (l : Byte) : (s.setTracker m l).svalid = true := rfl
@[simp] theorem State.setTracker_olen (s : State) (m : BitVec 4) (l : Byte) : (s.setTracker m l).olen = s.olen := rfl
@[simp] theorem State.setTracker_obuf (s : State) (m : BitVec 4) (l : Byte) : (s.setTracker m l).obuf = s.obuf := rfl
@[simp] theorem State.setTracker_ibuf (s : State) (m : BitVec 4) (l : Byte) : (s.setTracker m l).ibuf = s.ibuf := rfl
@[simp] theorem State.setTracker_txq (s : State) (m : BitVec 4) (l : Byte) : (s.setTracker m l).txq = s.txq := rfl
@[simp] theorem State.setTracker_rxq (s : State) (m : BitVec 4) (l : Byte) : (s.setTracker m l).rxq = s.rxq := rfl
@[simp] theorem State.setTracker_cfg (s : State) (m : BitVec 4) (l : Byte) : (s.setTracker m l).cfg = s.cfg := rfl
@[simp] theorem State.setTracker_inbox (s : State) (m : BitVec 4) (l : Byte) : (s.setTracker m l).inbox = s.inbox := rfl
@[simp] theorem State.setTracker_reply (s : State) (m : BitVec 4) (l : Byte) : (s.setTracker m l).reply = s.reply := rfl
@[simp] theorem State.setTracker_draws (s : State) (m : BitVec 4) (l : Byte) : (s.setTracker m l).draws = s.draws := rfl

/-! ### State.setFramed -/

@[simp] theorem State.setFramed_pvalid (s : State) (o : List Host.Cell) (q : List Byte) (n : Nat) : (s.setFramed o q n).pvalid = s.pvalid := rfl
@[simp] theorem State.setFramed_warn (s : State) (o : List Host.Cell) (q : List Byte) (n : Nat) : (s.setFramed o q n).warn = s.warn := rfl
@[simp] theorem State.setFramed_gen (s : State) (o : List Host.Cell) (q : List Byte) (n : Nat) : (s.setFramed o q n).gen = s.gen := rfl
@[simp] theorem State.setFramed_hindex (s : State) (o : List Host.Cell) (q : List Byte) (n : Nat) : (s.setFramed o q n).hindex = s.hindex := rfl
@[simp] theorem State.setFramed_clk12m (s : State) (o : List Host.Cell) (q : List Byte) (n : Nat) : (s.setFramed o q n).clk12m = s.clk12m := rfl
@[simp] theorem State.setFramed_hdrlen (s : State) (o : List Host.Cell) (q : List Byte) (n : Nat) : (s.setFramed o q n).hdrlen = s.hdrlen := rfl
@[simp] theorem State.setFramed_portno (s : State) (o : List Host.Cell) (q : List Byte) (n : Nat) : (s.setFramed o q n).portno = s.portno := rfl
@[simp] theorem State.setFramed_baudLo (s : State) (o : List Host.Cell) (q : List Byte) (n : Nat) : (s.setFramed o q n).baudLo = s.baudLo := rfl
@[simp] theorem State.setFramed_baudHi (s : State) (o : List Host.Cell) (q : List Byte) (n : Nat) : (s.setFramed o q n).baudHi = s.baudHi := rfl
@[simp] theorem State.setFramed_lcw (s : State) (o : List Host.Cell) (q : List Byte) (n : Nat) : (s.setFramed o q n).lcw = s.lcw := rfl
@[simp] theorem State.setFramed_flowSel (s : State) (o : List Host.Cell) (q : List Byte) (n : Nat) : (s.setFramed o q n).flowSel = s.flowSel := rfl
@[simp] theorem State.setFramed_xon (s : State) (o : List Host.Cell) (q : List Byte) (n : Nat) : (s.setFramed o q n).xon = s.xon := rfl
@[simp] theorem State.setFramed_xoff (s : State) (o : List Host.Cell) (q : List Byte) (n : Nat) : (s.setFramed o q n).xoff = s.xoff := rfl
@[simp] theorem State.setFramed_wvalid (s : State) (o : List Host.Cell) (q : List Byte) (n : Nat) : (s.setFramed o q n).wvalid = s.wvalid := rfl
@[simp] theorem State.setFramed_lastLcw (s : State) (o : List Host.Cell) (q : List Byte) (n : Nat) : (s.setFramed o q n).lastLcw = s.lastLcw := rfl
@[simp] theorem State.setFramed_stModem (s : State) (o : List Host.Cell) (q : List Byte) (n : Nat) : (s.setFramed o q n).stModem = s.stModem := rfl
@[simp] theorem State.setFramed_stLine (s : State) (o : List Host.Cell) (q : List Byte) (n : Nat) : (s.setFramed o q n).stLine = s.stLine := rfl
@[simp] theorem State.setFramed_svalid (s : State) (o : List Host.Cell) (q : List Byte) (n : Nat) : (s.setFramed o q n).svalid = s.svalid := rfl
@[simp] theorem State.setFramed_olen (s : State) (o : List Host.Cell) (q : List Byte) (n : Nat) : (s.setFramed o q n).olen = BitVec.ofNat 16 n := rfl
@[simp] theorem State.setFramed_obuf (s : State) (o : List Host.Cell) (q : List Byte) (n : Nat) : (s.setFramed o q n).obuf = o := rfl
@[simp] theorem State.setFramed_ibuf (s : State) (o : List Host.Cell) (q : List Byte) (n : Nat) : (s.setFramed o q n).ibuf = s.ibuf := rfl
@[simp] theorem State.setFramed_txq (s : State) (o : List Host.Cell) (q : List Byte) (n : Nat) : (s.setFramed o q n).txq = q := rfl
@[simp] theorem State.setFramed_rxq (s : State) (o : List Host.Cell) (q : List Byte) (n : Nat) : (s.setFramed o q n).rxq = s.rxq := rfl
@[simp] theorem State.setFramed_cfg (s : State) (o : List Host.Cell) (q : List Byte) (n : Nat) : (s.setFramed o q n).cfg = s.cfg := rfl
@[simp] theorem State.setFramed_inbox (s : State) (o : List Host.Cell) (q : List Byte) (n : Nat) : (s.setFramed o q n).inbox = s.inbox := rfl
@[simp] theorem State.setFramed_reply (s : State) (o : List Host.Cell) (q : List Byte) (n : Nat) : (s.setFramed o q n).reply = s.reply := rfl
@[simp] theorem State.setFramed_draws (s : State) (o : List Host.Cell) (q : List Byte) (n : Nat) : (s.setFramed o q n).draws = s.draws := rfl

/-! ### State.pushRx -/

@[simp] theorem State.pushRx_pvalid (s : State) (bs : List Byte) : (s.pushRx bs).pvalid = s.pvalid := rfl
@[simp] theorem State.pushRx_warn (s : State) (bs : List Byte) : (s.pushRx bs).warn = s.warn := rfl
@[simp] theorem State.pushRx_gen (s : State) (bs : List Byte) : (s.pushRx bs).gen = s.gen := rfl
@[simp] theorem State.pushRx_hindex (s : State) (bs : List Byte) : (s.pushRx bs).hindex = s.hindex := rfl
@[simp] theorem State.pushRx_clk12m (s : State) (bs : List Byte) : (s.pushRx bs).clk12m = s.clk12m := rfl
@[simp] theorem State.pushRx_hdrlen (s : State) (bs : List Byte) : (s.pushRx bs).hdrlen = s.hdrlen := rfl
@[simp] theorem State.pushRx_portno (s : State) (bs : List Byte) : (s.pushRx bs).portno = s.portno := rfl
@[simp] theorem State.pushRx_baudLo (s : State) (bs : List Byte) : (s.pushRx bs).baudLo = s.baudLo := rfl
@[simp] theorem State.pushRx_baudHi (s : State) (bs : List Byte) : (s.pushRx bs).baudHi = s.baudHi := rfl
@[simp] theorem State.pushRx_lcw (s : State) (bs : List Byte) : (s.pushRx bs).lcw = s.lcw := rfl
@[simp] theorem State.pushRx_flowSel (s : State) (bs : List Byte) : (s.pushRx bs).flowSel = s.flowSel := rfl
@[simp] theorem State.pushRx_xon (s : State) (bs : List Byte) : (s.pushRx bs).xon = s.xon := rfl
@[simp] theorem State.pushRx_xoff (s : State) (bs : List Byte) : (s.pushRx bs).xoff = s.xoff := rfl
@[simp] theorem State.pushRx_wvalid (s : State) (bs : List Byte) : (s.pushRx bs).wvalid = s.wvalid := rfl
@[simp] theorem State.pushRx_lastLcw (s : State) (bs : List Byte) : (s.pushRx bs).lastLcw = s.lastLcw := rfl
@[simp] theorem State.pushRx_stModem (s : State) (bs : List Byte) : (s.pushRx bs).stModem = s.stModem := rfl
@[simp] theorem State.pushRx_stLine (s : State) (bs : List Byte) : (s.pushRx bs).stLine = s.stLine := rfl
@[simp] theorem State.pushRx_svalid (s : State) (bs : List Byte) : (s.pushRx bs).svalid = s.svalid := rfl
@[simp] theorem State.pushRx_olen (s : State) (bs : List Byte) : (s.pushRx bs).olen = s.olen := rfl
@[simp] theorem State.pushRx_obuf (s : State) (bs : List Byte) : (s.pushRx bs).obuf = s.obuf := rfl
@[simp] theorem State.pushRx_ibuf (s : State) (bs : List Byte) : (s.pushRx bs).ibuf = s.ibuf := rfl
@[simp] theorem State.pushRx_txq (s : State) (bs : List Byte) : (s.pushRx bs).txq = s.txq := rfl
@[simp] theorem State.pushRx_rxq (s : State) (bs : List Byte) : (s.pushRx bs).rxq = s.rxq ++ bs := rfl
@[simp] theorem State.pushRx_cfg (s : State) (bs : List Byte) : (s.pushRx bs).cfg = s.cfg := rfl
@[simp] theorem State.pushRx_inbox (s : State) (bs : List Byte) : (s.pushRx bs).inbox = s.inbox := rfl
@[simp] theorem State.pushRx_reply (s : State) (bs : List Byte) : (s.pushRx bs).reply = s.reply := rfl
@[simp] theorem State.pushRx_draws (s : State) (bs : List Byte) : (s.pushRx bs).draws = s.draws := rfl

/-! ### State.redraw -/

@[simp] theorem State.redraw_pvalid (s : State) : (s.redraw).pvalid = s.pvalid := rfl
@[simp] theorem State.redraw_warn (s : State) : (s.redraw).warn = s.warn := rfl
@[simp] theorem State.redraw_gen (s : State) : (s.redraw).gen = s.gen := rfl
@[simp] theorem State.redraw_hindex (s : State) : (s.redraw).hindex = s.hindex := rfl
@[simp] theorem State.redraw_clk12m (s : State) : (s.redraw).clk12m = s.clk12m := rfl
@[simp] theorem State.redraw_hdrlen (s : State) : (s.redraw).hdrlen = s.hdrlen := rfl
@[simp] theorem State.redraw_portno (s : State) : (s.redraw).portno = s.portno := rfl
@[simp] theorem State.redraw_baudLo (s : State) : (s.redraw).baudLo = s.baudLo := rfl
@[simp] theorem State.redraw_baudHi (s : State) : (s.redraw).baudHi = s.baudHi := rfl
@[simp] theorem State.redraw_lcw (s : State) : (s.redraw).lcw = s.lcw := rfl
@[simp] theorem State.redraw_flowSel (s : State) : (s.redraw).flowSel = s.flowSel := rfl
@[simp] theorem State.redraw_xon (s : State) : (s.redraw).xon = s.xon := rfl
@[simp] theorem State.redraw_xoff (s : State) : (s.redraw).xoff = s.xoff := rfl
@[simp] theorem State.redraw_wvalid (s : State) : (s.redraw).wvalid = s.wvalid := rfl
@[simp] theorem State.redraw_lastLcw (s : State) : (s.redraw).lastLcw = s.lastLcw := rfl
@[simp] theorem State.redraw_stModem (s : State) : (s.redraw).stModem = s.stModem := rfl
@[simp] theorem State.redraw_stLine (s : State) : (s.redraw).stLine = s.stLine := rfl
@[simp] theorem State.redraw_svalid (s : State) : (s.redraw).svalid = s.svalid := rfl
@[simp] theorem State.redraw_olen (s : State) : (s.redraw).olen = s.olen := rfl
@[simp] theorem State.redraw_obuf (s : State) : (s.redraw).obuf = s.obuf := rfl
@[simp] theorem State.redraw_ibuf (s : State) : (s.redraw).ibuf = s.ibuf := rfl
@[simp] theorem State.redraw_txq (s : State) : (s.redraw).txq = s.txq := rfl
@[simp] theorem State.redraw_rxq (s : State) : (s.redraw).rxq = s.rxq := rfl
@[simp] theorem State.redraw_cfg (s : State) : (s.redraw).cfg = s.cfg := rfl
@[simp] theorem State.redraw_inbox (s : State) : (s.redraw).inbox = s.inbox := rfl
@[simp] theorem State.redraw_reply (s : State) : (s.redraw).reply = s.reply := rfl
@[simp] theorem State.redraw_draws (s : State) : (s.redraw).draws = s.draws + 1 := rfl

/-! ### State.answer -/

@[simp] theorem State.answer_pvalid (s : State) (r : Reply) : (s.answer r).pvalid = s.pvalid := rfl
@[simp] theorem State.answer_warn (s : State) (r : Reply) : (s.answer r).warn = s.warn := rfl
@[simp] theorem State.answer_gen (s : State) (r : Reply) : (s.answer r).gen = s.gen := rfl
@[simp] theorem State.answer_hindex (s : State) (r : Reply) : (s.answer r).hindex = s.hindex := rfl
@[simp] theorem State.answer_clk12m (s : State) (r : Reply) : (s.answer r).clk12m = s.clk12m := rfl
@[simp] theorem State.answer_hdrlen (s : State) (r : Reply) : (s.answer r).hdrlen = s.hdrlen := rfl
@[simp] theorem State.answer_portno (s : State) (r : Reply) : (s.answer r).portno = s.portno := rfl
@[simp] theorem State.answer_baudLo (s : State) (r : Reply) : (s.answer r).baudLo = s.baudLo := rfl
@[simp] theorem State.answer_baudHi (s : State) (r : Reply) : (s.answer r).baudHi = s.baudHi := rfl
@[simp] theorem State.answer_lcw (s : State) (r : Reply) : (s.answer r).lcw = s.lcw := rfl
@[simp] theorem State.answer_flowSel (s : State) (r : Reply) : (s.answer r).flowSel = s.flowSel := rfl
@[simp] theorem State.answer_xon (s : State) (r : Reply) : (s.answer r).xon = s.xon := rfl
@[simp] theorem State.answer_xoff (s : State) (r : Reply) : (s.answer r).xoff = s.xoff := rfl
@[simp] theorem State.answer_wvalid (s : State) (r : Reply) : (s.answer r).wvalid = s.wvalid := rfl
@[simp] theorem State.answer_lastLcw (s : State) (r : Reply) : (s.answer r).lastLcw = s.lastLcw := rfl
@[simp] theorem State.answer_stModem (s : State) (r : Reply) : (s.answer r).stModem = s.stModem := rfl
@[simp] theorem State.answer_stLine (s : State) (r : Reply) : (s.answer r).stLine = s.stLine := rfl
@[simp] theorem State.answer_svalid (s : State) (r : Reply) : (s.answer r).svalid = s.svalid := rfl
@[simp] theorem State.answer_olen (s : State) (r : Reply) : (s.answer r).olen = s.olen := rfl
@[simp] theorem State.answer_obuf (s : State) (r : Reply) : (s.answer r).obuf = s.obuf := rfl
@[simp] theorem State.answer_ibuf (s : State) (r : Reply) : (s.answer r).ibuf = s.ibuf := rfl
@[simp] theorem State.answer_txq (s : State) (r : Reply) : (s.answer r).txq = s.txq := rfl
@[simp] theorem State.answer_rxq (s : State) (r : Reply) : (s.answer r).rxq = s.rxq := rfl
@[simp] theorem State.answer_cfg (s : State) (r : Reply) : (s.answer r).cfg = s.cfg := rfl
@[simp] theorem State.answer_inbox (s : State) (r : Reply) : (s.answer r).inbox = s.inbox := rfl
@[simp] theorem State.answer_reply (s : State) (r : Reply) : (s.answer r).reply = some r := rfl
@[simp] theorem State.answer_draws (s : State) (r : Reply) : (s.answer r).draws = s.draws := rfl

/-! ### State.advance -/

@[simp] theorem State.advance_pvalid (s : State) (rest : List HostAction) : (s.advance rest).pvalid = s.pvalid := rfl
@[simp] theorem State.advance_warn (s : State) (rest : List HostAction) : (s.advance rest).warn = s.warn := rfl
@[simp] theorem State.advance_gen (s : State) (rest : List HostAction) : (s.advance rest).gen = s.gen := rfl
@[simp] theorem State.advance_hindex (s : State) (rest : List HostAction) : (s.advance rest).hindex = s.hindex := rfl
@[simp] theorem State.advance_clk12m (s : State) (rest : List HostAction) : (s.advance rest).clk12m = s.clk12m := rfl
@[simp] theorem State.advance_hdrlen (s : State) (rest : List HostAction) : (s.advance rest).hdrlen = s.hdrlen := rfl
@[simp] theorem State.advance_portno (s : State) (rest : List HostAction) : (s.advance rest).portno = s.portno := rfl
@[simp] theorem State.advance_baudLo (s : State) (rest : List HostAction) : (s.advance rest).baudLo = s.baudLo := rfl
@[simp] theorem State.advance_baudHi (s : State) (rest : List HostAction) : (s.advance rest).baudHi = s.baudHi := rfl
@[simp] theorem State.advance_lcw (s : State) (rest : List HostAction) : (s.advance rest).lcw = s.lcw := rfl
@[simp] theorem State.advance_flowSel (s : State) (rest : List HostAction) : (s.advance rest).flowSel = s.flowSel := rfl
@[simp] theorem State.advance_xon (s : State) (rest : List HostAction) : (s.advance rest).xon = s.xon := rfl
@[simp] theorem State.advance_xoff (s : State) (rest : List HostAction) : (s.advance rest).xoff = s.xoff := rfl
@[simp] theorem State.advance_wvalid (s : State) (rest : List HostAction) : (s.advance rest).wvalid = s.wvalid := rfl
@[simp] theorem State.advance_lastLcw (s : State) (rest : List HostAction) : (s.advance rest).lastLcw = s.lastLcw := rfl
@[simp] theorem State.advance_stModem (s : State) (rest : List HostAction) : (s.advance rest).stModem = s.stModem := rfl
@[simp] theorem State.advance_stLine (s : State) (rest : List HostAction) : (s.advance rest).stLine = s.stLine := rfl
@[simp] theorem State.advance_svalid (s : State) (rest : List HostAction) : (s.advance rest).svalid = s.svalid := rfl
@[simp] theorem State.advance_olen (s : State) (rest : List HostAction) : (s.advance rest).olen = s.olen := rfl
@[simp] theorem State.advance_obuf (s : State) (rest : List HostAction) : (s.advance rest).obuf = s.obuf := rfl
@[simp] theorem State.advance_ibuf (s : State) (rest : List HostAction) : (s.advance rest).ibuf = s.ibuf := rfl
@[simp] theorem State.advance_txq (s : State) (rest : List HostAction) : (s.advance rest).txq = s.txq := rfl
@[simp] theorem State.advance_rxq (s : State) (rest : List HostAction) : (s.advance rest).rxq = s.rxq := rfl
@[simp] theorem State.advance_cfg (s : State) (rest : List HostAction) : (s.advance rest).cfg = s.cfg := rfl
@[simp] theorem State.advance_inbox (s : State) (rest : List HostAction) : (s.advance rest).inbox = rest := rfl
@[simp] theorem State.advance_reply (s : State) (rest : List HostAction) : (s.advance rest).reply = none := rfl
@[simp] theorem State.advance_draws (s : State) (rest : List HostAction) : (s.advance rest).draws = s.draws := rfl

/-! ### State.resetWith -/

@[simp] theorem State.resetWith_pvalid (p : Params) : (State.resetWith p).pvalid = false := rfl
@[simp] theorem State.resetWith_warn (p : Params) : (State.resetWith p).warn = false := rfl
@[simp] theorem State.resetWith_gen (p : Params) : (State.resetWith p).gen = .g0 := rfl
@[simp] theorem State.resetWith_hindex (p : Params) : (State.resetWith p).hindex = false := rfl
@[simp] theorem State.resetWith_clk12m (p : Params) : (State.resetWith p).clk12m = false := rfl
@[simp] theorem State.resetWith_hdrlen (p : Params) : (State.resetWith p).hdrlen = 0#1 := rfl
@[simp] theorem State.resetWith_portno (p : Params) : (State.resetWith p).portno = 0#8 := rfl
@[simp] theorem State.resetWith_baudLo (p : Params) : (State.resetWith p).baudLo = 0#16 := rfl
@[simp] theorem State.resetWith_baudHi (p : Params) : (State.resetWith p).baudHi = 0#16 := rfl
@[simp] theorem State.resetWith_lcw (p : Params) : (State.resetWith p).lcw = 0#16 := rfl
@[simp] theorem State.resetWith_flowSel (p : Params) : (State.resetWith p).flowSel = 0#8 := rfl
@[simp] theorem State.resetWith_xon (p : Params) : (State.resetWith p).xon = 0#8 := rfl
@[simp] theorem State.resetWith_xoff (p : Params) : (State.resetWith p).xoff = 0#8 := rfl
@[simp] theorem State.resetWith_wvalid (p : Params) : (State.resetWith p).wvalid = false := rfl
@[simp] theorem State.resetWith_lastLcw (p : Params) : (State.resetWith p).lastLcw = 0#16 := rfl
@[simp] theorem State.resetWith_stModem (p : Params) : (State.resetWith p).stModem = 0#4 := rfl
@[simp] theorem State.resetWith_stLine (p : Params) : (State.resetWith p).stLine = 0#8 := rfl
@[simp] theorem State.resetWith_svalid (p : Params) : (State.resetWith p).svalid = false := rfl
@[simp] theorem State.resetWith_olen (p : Params) : (State.resetWith p).olen = 0#16 := rfl
@[simp] theorem State.resetWith_obuf (p : Params) : (State.resetWith p).obuf = [] := rfl
@[simp] theorem State.resetWith_ibuf (p : Params) : (State.resetWith p).ibuf = [] := rfl
@[simp] theorem State.resetWith_txq (p : Params) : (State.resetWith p).txq = [] := rfl
@[simp] theorem State.resetWith_rxq (p : Params) : (State.resetWith p).rxq = [] := rfl
@[simp] theorem State.resetWith_cfg (p : Params) : (State.resetWith p).cfg = p := rfl
@[simp] theorem State.resetWith_inbox (p : Params) : (State.resetWith p).inbox = [] := rfl
@[simp] theorem State.resetWith_reply (p : Params) : (State.resetWith p).reply = none := rfl
@[simp] theorem State.resetWith_draws (p : Params) : (State.resetWith p).draws = 0 := rfl

end Sys2Proof.Machine
end

