-- ==== Sys2Proof/Laws/Ops.lean ====
section
/-! SUPPORT. What each shared operation and each meaning can do, said once: provers cite these lemmas instead of unfolding. -/

namespace Sys2Proof.Machine

theorem complete_eq (c : Completion) (s : State) : complete c s = .next (s.answer (.completion c.record)) := rfl

theorem raise_eq (e : Status) (s : State) :
    raise e s = .next (s.answer (.completion ({ status := e } : Completion).record)) := rfl

/-- A completion hands over its record and changes nothing else. -/
theorem complete_next {c : Completion} {s t : State} (h : complete c s = .next t) : t = s.answer (.completion c.record) := by
  rw [complete_eq] at h
  exact (Host.Outcome.next.inj h).symm

/-- An error changes the reply alone (60_exceptions.md R214). -/
theorem raise_next {e : Status} {s t : State} (h : raise e s = .next t) :
    t = s.answer (.completion ({ status := e } : Completion).record) :=
  complete_next h

/-- An error's record is its code, all flags 0 (60_exceptions.md R214). -/
theorem record_error (e : Status) : ({ status := e } : Completion).record = e.code.setWidth 16 := by
  cases e <;> decide

/-- The record of a RESOLVE that completes OK. -/
theorem record_warn (b : Bool) : ({ status := .ok, warn := b } : Completion).record = if b then 0x0100#16 else 0x0000#16 := by
  cases b <;> decide

/-- The record of a FRAME that completes OK. -/
theorem record_submit (b : Bool) : ({ status := .ok, submit := b } : Completion).record = if b then 0x0200#16 else 0x0000#16 := by
  cases b <;> decide

/-- The record of a PARSE of a short buffer. -/
theorem record_short : ({ status := .shortBuffer, resubmit := true } : Completion).record = 0x0402#16 := by decide

/-- The record of a PARSE that completes OK. -/
theorem record_notify (b : Bool) : ({ status := .ok, notify := b } : Completion).record = if b then 0x0800#16 else 0x0000#16 := by
  cases b <;> decide

/-- RESOLVE is refused by sequence, or writes the profile (40_profile.md R97). -/
theorem execResolve_cases (rev : Half) (iface : Byte) (serial : Bool) (s : State) :
    (s.pvalid = true ∧ execResolve rev iface serial s = raise .errSequence s) ∨
    (s.pvalid = false ∧ execResolve rev iface serial s =
      complete { status := .ok, warn := (resolution s.cfg rev serial).warn }
        (s.setProfile (resolution s.cfg rev serial).gen (resolution s.cfg rev serial).caps
          (headerLength (resolution s.cfg rev serial).gen)
          (portNumber s.cfg (resolution s.cfg rev serial).multi iface) (resolution s.cfg rev serial).warn)) := by
  unfold execResolve
  cases h : s.pvalid <;> simp

/-- CONFIG is refused by sequence, by operand or by speed, in this order, or writes the WireConfig (42_lineconfig.md R132). -/
theorem execConfig_cases (speed : BitVec 32) (dbits : BitVec 4) (parity : BitVec 2) (stop2 : Bool) (flow : BitVec 2)
    (xonc xoffc : Byte) (s : State) :
    (s.pvalid = false ∧ execConfig speed dbits parity stop2 flow xonc xoffc s = raise .errSequence s) ∨
    (s.pvalid = true ∧ lineOperandsOk dbits parity flow = false ∧
      execConfig speed dbits parity stop2 flow xonc xoffc s = raise .errBadOperand s) ∨
    (s.pvalid = true ∧ lineOperandsOk dbits parity flow = true ∧
      encodeBaud s.cfg s.gen.cls s.hindex s.clk12m speed.toNat = none ∧
      execConfig speed dbits parity stop2 flow xonc xoffc s = raise .errUnreachableBaud s) ∨
    (∃ lo hi, s.pvalid = true ∧ lineOperandsOk dbits parity flow = true ∧
      encodeBaud s.cfg s.gen.cls s.hindex s.clk12m speed.toNat = some (lo, hi) ∧
      execConfig speed dbits parity stop2 flow xonc xoffc s =
        complete { status := .ok } (s.setWire lo hi (packLine dbits parity stop2) (packFlow flow xonc xoffc))) := by
  unfold execConfig
  cases hp : s.pvalid
  · exact .inl ⟨rfl, by simp⟩
  · cases ho : lineOperandsOk dbits parity flow
    · exact .inr (.inl ⟨rfl, rfl, by simp⟩)
    · cases he : encodeBaud s.cfg s.gen.cls s.hindex s.clk12m speed.toNat with
      | none => exact .inr (.inr (.inl ⟨rfl, rfl, rfl, by simp⟩))
      | some p => exact .inr (.inr (.inr ⟨p.1, p.2, rfl, rfl, rfl, by simp⟩))

/-- BREAK is refused by sequence, or changes LAST_LCW (42_lineconfig.md R133). -/
theorem execBrk_cases (on : Bool) (s : State) :
    (s.pvalid = false ∧ execBrk on s = raise .errSequence s) ∨
    (s.pvalid = true ∧ execBrk on s = complete { status := .ok } (s.setLastLcw (withBreak on s.lastLcw))) := by
  unfold execBrk
  cases h : s.pvalid <;> simp

/-- FRAME is refused by sequence, or frames (43_framer.md R166). -/
theorem execFrame_cases (s : State) :
    (s.pvalid = false ∧ execFrame s = raise .errSequence s) ∨
    (s.pvalid = true ∧ execFrame s = complete { status := .ok, submit := (framed s).used != 0 }
      (s.setFramed (framed s).obuf (framed s).txq (framed s).used).redraw) := by
  unfold execFrame
  cases h : s.pvalid <;> simp

/-- PARSE is refused by sequence or by operand, finds the buffer short, or parses (44_parser.md R185). -/
theorem execParse_cases (len : Half) (s : State) :
    (s.pvalid = false ∧ execParse len s = raise .errSequence s) ∨
    (s.pvalid = true ∧ s.cfg.ibufCap < len.toNat ∧ execParse len s = raise .errBadOperand s) ∨
    (s.pvalid = true ∧ len.toNat ≤ s.cfg.ibufCap ∧ len.toNat < 2 ∧
      execParse len s = complete { status := .shortBuffer, resubmit := true } s) ∨
    (s.pvalid = true ∧ len.toNat ≤ s.cfg.ibufCap ∧ 2 ≤ len.toNat ∧ execParse len s =
      complete
        { status := .ok
          notify := statusChanged s.svalid s.stModem (parsedModem s len.toNat) s.stLine (parsed s len.toNat).lsrAcc }
        (trackStatus (parsedModem s len.toNat) (parsed s len.toNat).lsrAcc (s.pushRx (parsed s len.toNat).payload)).redraw) := by
  unfold execParse
  cases hp : s.pvalid
  · exact .inl ⟨rfl, by simp⟩
  · by_cases ho : len.toNat ≤ s.cfg.ibufCap
    · by_cases hl : len.toNat < 2
      · exact .inr (.inr (.inl ⟨rfl, ho, hl, by simp [lenOperandOk, ho, hl]⟩))
      · exact .inr (.inr (.inr ⟨rfl, ho, by omega, by simp [lenOperandOk, ho, hl]⟩))
    · exact .inr (.inl ⟨rfl, by omega, by simp [lenOperandOk, ho]⟩)

/-- The tracker after StatusUpdate holds the new status either way, and is valid (44_parser.md R184, R185). -/
theorem trackStatus_cases (m : BitVec 4) (l : Byte) (s : State) :
    (trackStatus m l s = s.setTracker m l ∧ statusChanged s.svalid s.stModem m s.stLine l = true) ∨
    (trackStatus m l s = s ∧ statusChanged s.svalid s.stModem m s.stLine l = false ∧ s.svalid = true ∧ s.stModem = m ∧
      s.stLine = l) := by
  unfold trackStatus
  by_cases h : statusChanged s.svalid s.stModem m s.stLine l = true
  · exact .inl ⟨if_pos h, h⟩
  · refine .inr ⟨if_neg h, by simpa using h, ?_⟩
    simp only [statusChanged, Bool.or_eq_true, Bool.not_eq_true', bne_iff_ne, ne_eq, not_or, not_not] at h
    exact ⟨by simpa using h.1.1, h.1.2.symm, h.2.symm⟩

/-- With no host action at hand USFP waits (70_reset_and_hazards.md R242). -/
theorem serveHost_nil (s : State) (h : s.inbox = []) : serveHost s = .next (s.advance []) := by
  simp [serveHost, h]

/-- The oldest host action acts (20_memory.md R51). -/
theorem serveHost_cons (s : State) (a : HostAction) (rest : List HostAction) (h : s.inbox = a :: rest) :
    serveHost s = hostAct a (s.advance rest) := by
  simp [serveHost, h]

/-- A step under parameters the spec allows serves the host. -/
theorem step_eq (s : State) (h : s.cfg.wf = true) : step s = serveHost s := by simp [step, h]

/-- A step that answers a next state ran under parameters the spec allows. -/
theorem step_next {s t : State} (h : step s = .next t) : s.cfg.wf = true ∧ serveHost s = .next t := by
  unfold step at h
  split at h
  · exact ⟨by assumption, h⟩
  · cases h

end Sys2Proof.Machine
end

