-- ==== Sys2Proof/Laws/Parser.lean ====
section
/-! SUPPORT. What the packet loop can do, said once: its two kinds of round, what it depends on, and what it keeps. -/

namespace Sys2Proof.Machine

/-- With less than a header left the loop is over (44_parser.md R182, R186). -/
theorem parseLoop_short (s : State) (fuel off rem : Nat) (acc : ParseAcc) (h : rem < 2) :
    parseLoop s fuel off rem acc = acc := by
  cases fuel with
  | zero => rfl
  | succ fuel => rw [parseLoop, if_neg (by omega)]

/-- A packet that is not full is the last one and takes all that is left (44_parser.md R182). -/
theorem parseLoop_last (s : State) (fuel off rem : Nat) (acc : ParseAcc) (h2 : 2 ≤ rem) (hm : rem < s.cfg.inMaxpkt) :
    parseLoop s (fuel + 1) off rem acc = parsePacket s off (rem - 2) acc := by
  have hk : payloadLength s (rem - 2) = rem - 2 := by
    unfold payloadLength
    omega
  rw [parseLoop, if_pos h2]
  simp only [hk]
  exact parseLoop_short _ _ _ _ _ (by omega)

/-- A full packet has IN_MAXPKT bytes and the loop goes on behind it (44_parser.md R182). -/
theorem parseLoop_full (s : State) (fuel off rem : Nat) (acc : ParseAcc) (h2 : 2 ≤ s.cfg.inMaxpkt) (hm : s.cfg.inMaxpkt ≤ rem) :
    parseLoop s (fuel + 1) off rem acc =
      parseLoop s fuel (off + s.cfg.inMaxpkt) (rem - s.cfg.inMaxpkt) (parsePacket s off (s.cfg.inMaxpkt - 2) acc) := by
  have hk : payloadLength s (rem - 2) = s.cfg.inMaxpkt - 2 := by
    unfold payloadLength
    omega
  rw [parseLoop, if_pos (by omega)]
  simp only [hk]
  rw [show off + 2 + (s.cfg.inMaxpkt - 2) = off + s.cfg.inMaxpkt by omega,
    show rem - 2 - (s.cfg.inMaxpkt - 2) = rem - s.cfg.inMaxpkt by omega]

/-- A packet depends on IBUF through its own bytes, and on GEN and the parameters. -/
theorem parsePacket_congr (s t : State) (off k : Nat) (acc : ParseAcc) (hg : t.gen = s.gen) (hc : t.cfg = s.cfg)
    (h : ∀ a, off ≤ a → a < off + 2 + k → readIbuf t a = readIbuf s a) : parsePacket t off k acc = parsePacket s off k acc := by
  have hp : payloadAt t (off + 2) k = payloadAt s (off + 2) k := by
    unfold payloadAt
    refine List.map_congr_left fun i hi => h _ (by omega) ?_
    have := List.mem_range.1 hi
    omega
  simp only [parsePacket, hg, hc, hp, h off (by omega) (by omega), h (off + 1) (by omega) (by omega)]

/-- The loop reads no byte of IBUF outside what is left of the buffer (20_memory.md R42). -/
theorem parseLoop_congr (s t : State) (hg : t.gen = s.gen) (hc : t.cfg = s.cfg) : ∀ (fuel off rem : Nat) (acc : ParseAcc),
    (∀ a, off ≤ a → a < off + rem → readIbuf t a = readIbuf s a) →
    parseLoop t fuel off rem acc = parseLoop s fuel off rem acc := by
  intro fuel
  induction fuel with
  | zero => intro off rem acc _; rfl
  | succ fuel ih =>
    intro off rem acc h
    rw [parseLoop, parseLoop]
    split
    · have hk : payloadLength t (rem - 2) = payloadLength s (rem - 2) := by simp only [payloadLength, hc]
      have hle : payloadLength s (rem - 2) ≤ rem - 2 := Nat.min_le_left _ _
      simp only [hk]
      rw [parsePacket_congr s t off _ acc hg hc fun a h1 h2 => h a h1 (by omega),
        ih _ _ _ fun a h1 h2 => h a (by omega) (by omega)]
    · rfl

/-- Every accumulated line-status bit is inside the mask (30_encoding.md R76, 10_state.md R24 (f)). -/
theorem parseLoop_lsrAcc_masked (s : State) : ∀ (fuel off rem : Nat) (acc : ParseAcc),
    acc.lsrAcc &&& ~~~s.cfg.maskOf s.gen = 0#8 →
    (parseLoop s fuel off rem acc).lsrAcc &&& ~~~s.cfg.maskOf s.gen = 0#8 := by
  intro fuel
  induction fuel with
  | zero => intro off rem acc h; exact h
  | succ fuel ih =>
    intro off rem acc h
    rw [parseLoop]
    split
    · refine ih _ _ _ ?_
      refine BitVec.eq_of_getLsbD_eq fun i hi => ?_
      have hb := congrArg (fun v => v.getLsbD i) h
      simp only [parsePacket, BitVec.getLsbD_and, BitVec.getLsbD_or, BitVec.getLsbD_not, BitVec.getLsbD_zero] at hb ⊢
      revert hb
      cases acc.lsrAcc.getLsbD i <;> cases (s.cfg.maskOf s.gen).getLsbD i <;> simp
    · exact h

end Sys2Proof.Machine
end

