-- ==== Sys2Proof/Laws/PerInstr.lean ====
section
/-! SUPPORT. Statements made per instruction, one lemma per constructor of Instr. -/

namespace Sys2Proof.Laws.EncodedOpcode

open Sys2Proof

/-- The opcode of a command (30_encoding.md R61). -/
def opcode : Instr → BitVec 4
  | .resolve _ _ _ => 0x1#4
  | .config _ _ _ _ _ _ _ => 0x2#4
  | .brk _ => 0x3#4
  | .frame => 0x4#4
  | .parse _ => 0x5#4

/-- The encoded command carries its row's opcode in `D[63:60]` (30_encoding.md R60, R61). -/
def Statement (i : Instr) : Prop := opcOf (encode i) = opcode i

theorem resolve (rev : Half) (iface : Byte) (serial : Bool) : Statement (.resolve rev iface serial) := by
  simp (disch := omega) [Statement, encode, opcode, opcOf_eq_fieldOf, fieldOf_or, fieldOf_placeField, fieldOf_placeField_apart]

theorem config (speed : BitVec 32) (dbits : BitVec 4) (parity : BitVec 2) (stop2 : Bool) (flow : BitVec 2) (xonc xoffc : Byte) :
    Statement (.config speed dbits parity stop2 flow xonc xoffc) := by
  simp (disch := omega) [Statement, encode, opcode, opcOf_eq_fieldOf, fieldOf_or, fieldOf_placeField, fieldOf_placeField_apart]

theorem brk (on : Bool) : Statement (.brk on) := by
  simp (disch := omega) [Statement, encode, opcode, opcOf_eq_fieldOf, fieldOf_or, fieldOf_placeField, fieldOf_placeField_apart]

theorem frame : Statement .frame := by
  simp (disch := omega) [Statement, encode, opcode, opcOf_eq_fieldOf, fieldOf_placeField]

theorem parse (len : Half) : Statement (.parse len) := by
  simp (disch := omega) [Statement, encode, opcode, opcOf_eq_fieldOf, fieldOf_or, fieldOf_placeField, fieldOf_placeField_apart]

end Sys2Proof.Laws.EncodedOpcode
end

