-- ==== Sys2Proof/Tests/Slice0.lean ====
section
/-! SUPPORT. Small tests, expected values from 95_test_vectors.md or written out from the formats of 30_encoding.md, and one witness
for every statement that has hypotheses. -/

namespace Sys2Proof.Tests

open Sys2Proof Sys2Proof.Machine

/-! ### Helpers -/

/-- An instance with parameters `p` after a RESOLVE to the given profile. -/
def resolved (p : Params) (g : Gen) (hindex clk12m : Bool) (portno : Byte) : State :=
  (State.resetWith p).setProfile g { hindex := hindex, clk12m := clk12m } (if g = .g0 then 1#1 else 0#1) portno false

/-- A G4 instance with the parameters of program P1. -/
def plain : State := resolved Params.default .g4 false false 0#8

/-- A G0 instance with an outbound buffer of `cap` bytes. -/
def oldest (cap : Nat) : State := resolved (Params.withCaps cap 128 64) .g0 false false 0#8

/-- The state with these bytes pending. -/
def pending (s : State) (n : Nat) : State := { s with txq := (List.range n).map (fun i => BitVec.ofNat 8 i) }

/-- The state with these bytes at the start of IBUF. -/
def received (s : State) (bytes : List Byte) : State := { s with ibuf := Memory.writeRun [] 0 bytes }

/-- The nineteen bytes of vector V-S1. -/
def twoHeaders : List Byte :=
  [0x51#8, 0x02#8, 0x30#8, 0x31#8, 0x32#8, 0x33#8, 0x34#8, 0x35#8, 0x36#8, 0x37#8, 0x38#8, 0x39#8]
    ++ [0xA0#8, 0x10#8, 0x61#8, 0x62#8, 0x63#8, 0x64#8, 0x65#8]

/-- The state with these host actions at hand. -/
def hosted (s : State) (actions : List HostAction) : State := { s with inbox := actions }

/-- What the step hands over. -/
def replyOf : Host.Outcome State Fault Refusal → Option Reply
  | .next t => t.reply
  | _ => none

/-- Registers after a step. -/
def registersOf (ns : List Nat) : Host.Outcome State Fault Refusal → List (Option Half)
  | .next t => ns.map (registerValue t)
  | _ => []

/-- Bytes of OBUF after a step. -/
def obufOf (offsets : List Nat) : Host.Outcome State Fault Refusal → List (Option Byte)
  | .next t => offsets.map (Memory.read? t.obuf)
  | _ => []

/-- The number of bytes pending after a step. -/
def pendingOf : Host.Outcome State Fault Refusal → Option Nat
  | .next t => some t.txq.length
  | _ => none

/-- RXQ after a step. -/
def payloadOf : Host.Outcome State Fault Refusal → List Byte
  | .next t => t.rxq
  | _ => []

/-- One step that issues a descriptor. -/
def issued (s : State) (w : Nat) : Host.Outcome State Fault Refusal := step (s.withFetchWord 64 w)

/-! ### Well-formedness: one ill-formed command for each check (60_exceptions.md R213) -/

theorem test_wellFormed_config : Instr.wellFormed Params.default (.config 9600#32 8#4 2#2 true 2#2 0#8 0#8) = true := by decide

theorem test_wellFormed_refuses_four_data_bits :
    Instr.wellFormed Params.default (.config 9600#32 4#4 0#2 false 0#2 0#8 0#8) = false := by decide

theorem test_wellFormed_refuses_nine_data_bits :
    Instr.wellFormed Params.default (.config 9600#32 9#4 0#2 false 0#2 0#8 0#8) = false := by decide

theorem test_wellFormed_refuses_parity_three :
    Instr.wellFormed Params.default (.config 9600#32 8#4 3#2 false 0#2 0#8 0#8) = false := by decide

theorem test_wellFormed_refuses_flow_three :
    Instr.wellFormed Params.default (.config 9600#32 8#4 0#2 false 3#2 0#8 0#8) = false := by decide

theorem test_wellFormed_refuses_long_parse :
    Instr.wellFormed Params.default (.parse 129#16) = false ∧ Instr.wellFormed Params.default (.parse 128#16) = true := by decide

/-- Params.wf on the default parameters, and on sets that break one constraint each of 00_scope.md R6 and
40_profile.md R92 and R94. -/
theorem test_params_wf :
    Params.default.wf = true
      ∧ (Params.withCaps 1 128 64).wf = false ∧ (Params.withCaps 64 65536 64).wf = false ∧ (Params.withCaps 64 128 1).wf = false
      ∧ ({ Params.default with profileTable := [] } : Params).wf = false
      ∧ ({ Params.default with revThreshold := 0x0201#16 } : Params).wf = false
      ∧ ({ Params.default with fallbackGen := .g0 } : Params).wf = false
      ∧ ({ Params.default with roundoff := [] } : Params).wf = false
      ∧ ({ Params.default with lsrMask := [] } : Params).wf = false := by decide

/-! ### Decoding: words written out field by field from 30_encoding.md R62 to R66 -/

/-- R62: OPC, zeros, SERIAL, IFACE, REV. -/
theorem test_decode_resolve :
    decode (0b0001#4 ++ 0#35 ++ 0b1#1 ++ 0b00000001#8 ++ 0b0000011100000000#16) = .ok (.resolve 0x0700#16 1#8 true) := by decide

/-- R63: OPC, XOFFC, XONC, zeros, FLOW, zero, STOP2, PARITY, DBITS, SPEED. -/
theorem test_decode_config :
    decode (0b0010#4 ++ 0b00010011#8 ++ 0b00010001#8 ++ 0b00#2 ++ 0b10#2 ++ 0b0#1 ++ 0b1#1 ++ 0b01#2 ++ 0b1000#4
      ++ 0b00000000000000000100101100000000#32) = .ok (.config 19200#32 8#4 1#2 true 2#2 0x11#8 0x13#8) := by decide

/-- R64: OPC, zeros, ON. -/
theorem test_decode_brk :
    decode (0b0011#4 ++ 0#59 ++ 0b1#1) = .ok (.brk true) ∧ decode (0b0011#4 ++ 0#59 ++ 0b0#1) = .ok (.brk false) := by decide

/-- R65: OPC, zeros. -/
theorem test_decode_frame : decode (0b0100#4 ++ 0#60) = .ok .frame := by decide

/-- R66: OPC, zeros, LEN. -/
theorem test_decode_parse : decode (0b0101#4 ++ 0#44 ++ 0b0000000000010011#16) = .ok (.parse 19#16) := by decide

/-- The illegal descriptors of vector V-E1 with a reserved opcode. -/
theorem test_decode_reserved :
    decode 0x0000000000000000#64 = .error .reservedOpcode ∧ decode 0x6000000000000000#64 = .error .reservedOpcode
      ∧ decode 0xF000000000000000#64 = .error .reservedOpcode ∧ decode 0xFFFFFFFFFFFFFFFF#64 = .error .reservedOpcode := by
  decide

/-- The illegal descriptors of vectors V-E1 and V-L3 with a must-be-zero bit set. -/
theorem test_decode_mustBeZero :
    decode 0x4000000000000001#64 = .error .mustBeZero ∧ decode 0x5000000000010000#64 = .error .mustBeZero
      ∧ decode 0x3000000000000002#64 = .error .mustBeZero ∧ decode 0x1000000002000000#64 = .error .mustBeZero
      ∧ decode 0x2000008000000000#64 = .error .mustBeZero ∧ decode 0x2000040000000000#64 = .error .mustBeZero
      ∧ decode 0x2000080800002580#64 = .error .mustBeZero := by decide

/-- The encoder on the descriptors of vectors V-R1 and V-L3. -/
theorem test_encode :
    encode (.resolve 0x0800#16 3#8 true) = 0x1000000001030800#64
      ∧ encode (.config 3000000#32 8#4 0#2 false 1#2 0#8 0#8) = 0x20000108002DC6C0#64
      ∧ encode (.parse 129#16) = 0x5000000000000081#64 := by decide

/-- Text and descriptors of vectors V-L3 and V-S1 (30_encoding.md R69). -/
theorem test_assemble_config :
    assembleDescriptor "CONFIG  speed=19200, line=8O2, flow=xonxoff, xon=0x11, xoff=0x13".toList = some 0x2131125800004B00#64
      ∧ assembleDescriptor "CONFIG speed=9600, dbits=9".toList = some 0x2000000900002580#64 := by decide

theorem test_assemble_others :
    assembleDescriptor "RESOLVE rev=0x0600, iface=0, serial=1".toList = some 0x1000000001000600#64
      ∧ assembleDescriptor "BREAK   on=1".toList = some 0x3000000000000001#64
      ∧ assembleDescriptor "FRAME".toList = some 0x4000000000000000#64
      ∧ assembleDescriptor "PARSE   len=19".toList = some 0x5000000000000013#64
      ∧ assembleDescriptor "FETCH".toList = none := by decide

/-! ### One step of each command -/

/-- V-R1: code 0x0700, interface 1: GEN 5, FLAGS 0b11, HDRLEN 0, PORTNO 2, PSTAT 0b01. -/
theorem test_resolve_multiport :
    registersOf [0, 1, 2, 3, 4] (issued State.reset 0x1000000001010700) = [some 1, some 5, some 3, some 0, some 2]
      ∧ replyOf (issued State.reset 0x1000000001010700) = some (.completion 0x0000#16) := by decide

/-- V-R1: code 0x0201 takes the fallback: PSTAT 0b11, GEN 4, WARN in the completion. -/
theorem test_resolve_fallback :
    registersOf [0, 1, 2, 3, 4] (issued State.reset 0x1000000000000201) = [some 3, some 4, some 0, some 0, some 0]
      ∧ replyOf (issued State.reset 0x1000000000000201) = some (.completion 0x0100#16) := by decide

/-- V-L3: 19200 baud, 8O2, XON/XOFF on G4. -/
theorem test_config_line :
    registersOf [5, 6, 7, 8, 9, 10, 11, 12] (issued plain 0x2131125800004B00)
      = [some 0x809C, some 0, some 0x1108, some 4, some 0x11, some 0x13, some 1, some 0x1108] := by decide

/-- V-B5: 57600 baud on G5, fast clock and HINDEX; V-B7: 184 baud on G1 and on G2. -/
theorem test_config_baud :
    registersOf [5, 6] (issued (resolved Params.default .g5 true true 1#8) 0x200000080000E100) = [some 0x00D0, some 0x0300]
      ∧ registersOf [5, 6] (issued (resolved Params.default .g1 false false 0#8) 0x20000008000000B8) = [some 0xBFB0, some 0]
      ∧ registersOf [5, 6] (issued (resolved Params.default .g2 false false 0#8) 0x20000008000000B8) = [some 0x3FB0, some 1] := by
  decide

/-- V-L4: BREAK on. -/
theorem test_break_on : registersOf [12, 7] (issued { plain with lcw := 0x1108#16, lastLcw := 0x1108#16 } 0x3000000000000001)
    = [some 0x5108, some 0x1108] := by decide

/-- V-L4: BREAK off. -/
theorem test_break_off : registersOf [12, 7] (issued { plain with lcw := 0x1108#16, lastLcw := 0x5108#16 } 0x3000000000000000)
    = [some 0x1108, some 0x1108] := by decide

/-- V-F2: capacity 66, 100 bytes pending, headered. -/
theorem test_frame_headered :
    obufOf [0, 1, 63, 64, 65] (issued (pending (oldest 66) 100) 0x4000000000000000)
        = [some 0xFC#8, some 0#8, some 62#8, some 0x04#8, some 63#8]
      ∧ registersOf [16] (issued (pending (oldest 66) 100) 0x4000000000000000) = [some 66]
      ∧ pendingOf (issued (pending (oldest 66) 100) 0x4000000000000000) = some 36
      ∧ replyOf (issued (pending (oldest 66) 100) 0x4000000000000000) = some (.completion 0x0200#16) := by decide

/-- V-F1: capacity 64, 100 bytes pending, headerless. -/
theorem test_frame_headerless :
    obufOf [0, 63] (issued (pending plain 100) 0x4000000000000000) = [some 0#8, some 63#8]
      ∧ registersOf [16] (issued (pending plain 100) 0x4000000000000000) = [some 64]
      ∧ pendingOf (issued (pending plain 100) 0x4000000000000000) = some 36
      ∧ replyOf (issued (pending plain 100) 0x4000000000000000) = some (.completion 0x0200#16) := by decide

/-- V-S1: the two-header example, IN_MAXPKT 12. -/
theorem test_parse_two_headers :
    payloadOf (issued (received (resolved (Params.withCaps 64 128 12) .g4 false false 0#8) twoHeaders) 0x5000000000000013)
        = [0x30#8, 0x31#8, 0x32#8, 0x33#8, 0x34#8, 0x35#8, 0x36#8, 0x37#8, 0x38#8, 0x39#8, 0x61#8, 0x62#8, 0x63#8, 0x64#8, 0x65#8]
      ∧ registersOf [13, 14, 15]
          (issued (received (resolved (Params.withCaps 64 128 12) .g4 false false 0#8) twoHeaders) 0x5000000000000013)
        = [some 0b1110, some 0x12, some 1] := by decide

/-- V-S2: IN_MAXPKT 2, LEN 4: two headers, no payload; V-S3: the masks. -/
theorem test_parse_small_packets :
    registersOf [13, 14] (issued (received (resolved (Params.withCaps 64 128 2) .g4 false false 0#8)
        [0x51#8, 0x62#8, 0xA0#8, 0x10#8]) 0x5000000000000004) = [some 0b1110, some 0x12]
      ∧ registersOf [13, 14] (issued (received plain [0xFF#8, 0xFF#8]) 0x5000000000000002) = [some 0b1111, some 0x9F] := by decide

/-- P6: sequence, illegal descriptor before sequence, operand before speed, speed. -/
theorem test_errors :
    replyOf (issued State.reset 0x4000000000000000) = some (.completion 0x0011#16)
      ∧ replyOf (issued State.reset 0x4000000000000001) = some (.completion 0x0010#16)
      ∧ replyOf (issued plain 0x2000000900000064) = some (.completion 0x0012#16)
      ∧ replyOf (issued plain 0x2000000800000064) = some (.completion 0x0001#16)
      ∧ replyOf (issued plain 0x5000000000000081) = some (.completion 0x0012#16)
      ∧ replyOf (issued plain 0x5000000000000001) = some (.completion 0x0402#16) := by decide

/-- A register read, and a register number above 16 (10_state.md R13). -/
theorem test_register_numbers :
    replyOf (step (hosted plain [.readReg 1])) = some (.register 4#16) ∧ registerValue plain 16 = some 0#16
      ∧ registerValue plain 17 = none := by decide

/-- V-B9: DecodeBaud. -/
theorem test_decode_baud :
    decodeBaud false 0x4138#16 0x0000#16 = some 9600 ∧ decodeBaud false 0x8001#16 0x0000#16 = some 2400000
      ∧ decodeBaud true 0x00D0#16 0x0300#16 = some 57588 := by decide

/-! ### Witnesses: a state and operands that meet all hypotheses of a statement together, for each of its clauses -/

/-- EncodeOfDecode. -/
theorem witness_EncodeOfDecode : decode 0x5000000000000013#64 = .ok (.parse 19#16) := by decide

/-- StepRunsIssuedCommand. -/
theorem witness_StepRunsIssuedCommand :
    State.reset.cfg.wf = true ∧ (hosted State.reset [.issue 0x1000000001000600#64]).inbox = [.issue 0x1000000001000600#64]
      ∧ decode 0x1000000001000600#64 = .ok (.resolve 0x0600#16 0#8 true) := by decide

/-- IllegalDescriptorChangesNothing: a reserved opcode, and a must-be-zero bit at either end of its range. -/
theorem witness_IllegalDescriptorChangesNothing :
    plain.cfg.wf = true ∧ (hosted plain [.issue 0x6000000000000000#64]).inbox = [.issue 0x6000000000000000#64]
      ∧ legalDescriptor 0x6000000000000000#64 = false ∧ legalDescriptor 0x1000000002000000#64 = false
      ∧ legalDescriptor 0x1800000000000000#64 = false ∧ legalDescriptor 0x1000000001FFFFFF#64 = true := by decide

/-- ErrorsHaveNoEffect: each of the four errors, and SHORT_BUFFER. -/
theorem witness_ErrorsHaveNoEffect :
    step (hosted State.reset [.issue 0x4000000000000000#64]) = .next { State.reset with reply := some (.completion 0x0011#16) }
      ∧ step (hosted plain [.issue 0x4000000000000001#64]) = .next { plain with reply := some (.completion 0x0010#16) }
      ∧ step (hosted plain [.issue 0x5000000000000081#64]) = .next { plain with reply := some (.completion 0x0012#16) }
      ∧ step (hosted plain [.issue 0x2000000800000064#64]) = .next { plain with reply := some (.completion 0x0001#16) }
      ∧ step (hosted plain [.issue 0x5000000000000001#64]) = .next { plain with reply := some (.completion 0x0402#16) }
      ∧ errorRecord 0x0011#16 = true ∧ errorRecord 0x0010#16 = true ∧ errorRecord 0x0012#16 = true ∧ errorRecord 0x0001#16 = true
      ∧ (0x0402#16).setWidth 8 = 0x02#8 :=
  ⟨rfl, rfl, rfl, rfl, rfl, by decide, by decide, by decide, by decide, by decide⟩

/-- ErroringCommandLeavesNoTrace. -/
theorem witness_ErroringCommandLeavesNoTrace :
    (hosted plain [.issue 0x5000000000000081#64, .issue 0x4000000000000000#64]).inbox
        = .issue 0x5000000000000081#64 :: [.issue 0x4000000000000000#64]
      ∧ step (hosted plain [.issue 0x5000000000000081#64, .issue 0x4000000000000000#64])
        = .next { hosted plain [.issue 0x4000000000000000#64] with reply := some (.completion 0x0012#16) }
      ∧ errorRecord 0x0012#16 = true := ⟨rfl, rfl, by decide⟩

/-- SequenceErrors, both clauses. -/
theorem witness_SequenceErrors :
    plain.pvalid = true ∧ State.reset.pvalid = false ∧ ∀ rev iface serial, Instr.frame ≠ .resolve rev iface serial :=
  ⟨rfl, rfl, fun _ _ _ h => by cases h⟩

/-- OperandErrors: the values next to each range. -/
theorem witness_OperandErrors :
    plain.pvalid = true ∧ (4#4).toNat < 5 ∧ 8 < (9#4).toNat ∧ (3#2).toNat = 3 ∧ plain.cfg.ibufCap < (129#16).toNat
      ∧ ¬plain.cfg.ibufCap < (128#16).toNat := by decide

/-- ResetMeetsInv: a parameter set, at the least capacities R6 allows. -/
theorem witness_ResetMeetsInv : (Params.withCaps 2 2 2).wf = true := by decide

/-- A configured G0 instance with a framed chunk in OBUF, a break asserted and a status recorded. -/
def busy : State :=
  { resolved Params.default .g0 false false 0#8 with
    baudLo := 5#16, lcw := 0x0207#16, lastLcw := 0x4207#16, wvalid := true, stModem := 1#4, stLine := 0x02#8, svalid := true
    olen := 2#16, obuf := [(0, 0x04#8), (1, 0x41#8)], ibuf := [(0, 0x10#8), (1, 0x02#8)], txq := [0x42#8] }

/-- StepKeepsInv. -/
theorem witness_StepKeepsInv : (hosted busy [.issue 0x4000000000000000#64]).Inv
    ∧ ∃ t, step (hosted busy [.issue 0x4000000000000000#64]) = .next t ∧ t.txq = [] :=
  ⟨⟨by decide, by decide, by decide, by decide, by decide, by decide, by decide, by decide, by decide, by decide, by decide,
    by decide, by decide⟩, _, rfl, by decide⟩

/-- StepKeepsParameters. -/
theorem witness_StepKeepsParameters : ∃ t, step (hosted busy [.reset]) = .next t ∧ t.pvalid = false := ⟨_, rfl, by decide⟩

/-- ProfileImmutable and WireConfigOnlyByConfig. -/
theorem witness_ProfileImmutable :
    busy.pvalid = true ∧ (hosted busy [.issue 0x3000000000000001#64]).inbox.head? ≠ some .reset
      ∧ (0x3000000000000001#64).extractLsb' 60 4 ≠ 0x2#4
      ∧ ∃ t, step (hosted busy [.issue 0x3000000000000001#64]) = .next t ∧ t.lastLcw = 0x4207#16 :=
  ⟨rfl, by decide, by decide, _, rfl, by decide⟩

/-- UnresolvedRegistersStay. -/
theorem witness_UnresolvedRegistersStay :
    State.reset.pvalid = false ∧ sameRegisters (State.resetWith State.reset.cfg) State.reset
      ∧ ∃ t, step (hosted State.reset [.issue 0x4000000000000000#64]) = .next t ∧ t.pvalid = false :=
  ⟨rfl, fun _ => rfl, _, rfl, rfl⟩

/-- ResolveTakesFirstRow, at the table's third row. -/
theorem witness_ResolveTakesFirstRow :
    State.reset.pvalid = false
      ∧ State.reset.cfg.profileTable = defaultProfileTable.take 2
        ++ { code := 0x0500#16, gen := .g3, caps := { hindex := true, clk12m := false }, multiport := true }
          :: defaultProfileTable.drop 3
      ∧ (∀ q ∈ defaultProfileTable.take 2, q.code ≠ 0x0500#16) ∧ (0x0500#16 : Half) ≠ 0x0200#16 := by decide

/-- ErratumResolvedBySerial. -/
theorem witness_ErratumResolvedBySerial : State.reset.pvalid = false ∧ State.reset.cfg.wf = true := by decide

/-- SerialIgnoredElsewhere. -/
theorem witness_SerialIgnoredElsewhere : (0x0400#16 : Half) ≠ 0x0200#16 := by decide

/-- ResolveFallsBack, next to the threshold on either side. -/
theorem witness_ResolveFallsBack :
    State.reset.pvalid = false ∧ (∀ r ∈ State.reset.cfg.profileTable, r.code ≠ 0x01FF#16)
      ∧ (0x01FF#16).toNat < State.reset.cfg.revThreshold.toNat ∧ (∀ r ∈ State.reset.cfg.profileTable, r.code ≠ 0x0201#16)
      ∧ State.reset.cfg.revThreshold.toNat ≤ (0x0201#16).toNat := by decide

/-- DefaultTableResolvesEveryCode. -/
theorem witness_DefaultTableResolvesEveryCode :
    State.reset.pvalid = false ∧ State.reset.cfg.profileTable = defaultProfileTable ∧ State.reset.cfg.revThreshold = 0x0200#16
      ∧ State.reset.cfg.fallbackGen = .g4 := by decide

/-- SpeedsOutsideRangeRejected: the values next to both ranges, and inside them. -/
theorem witness_SpeedsOutsideRangeRejected :
    GenClass.later ≠ .fixed ∧ 182 < 183 ∧ 3000000 < 3000001 ∧ 12000000 < 12000001
      ∧ (encodeBaud Params.default .later false false 183).isSome = true
      ∧ (encodeBaud Params.default .later false false 3000000).isSome = true
      ∧ (encodeBaud Params.default .later true true 12000000).isSome = true := by decide

/-- SpeedAcceptedExactlyInTolerance: both clocks, the ends of both ranges, and the two speeds next to a tolerance bound that vector
V-B1 has (2900000 is rejected, 3000000 accepted). -/
theorem witness_SpeedAcceptedExactlyInTolerance :
    GenClass.early ≠ .fixed ∧ (false = true ↔ false = true ∧ 1200 ≤ 3000000) ∧ 3000000 = (if false then 12000000 else 3000000)
      ∧ (true = true ↔ true = true ∧ 1200 ≤ 12000000) ∧ 12000000 = (if true then 12000000 else 3000000)
      ∧ divisorEighths Params.default.roundoff .early 3000000 2900000 = 8
      ∧ encodeBaud Params.default .early false false 2900000 = none
      ∧ encodeBaud Params.default .early false false 3000000 = some (0x0000#16, 0x0000#16)
      ∧ encodeBaud Params.default .early false false 183 = some (0x4009#16, 0x0000#16)
      ∧ encodeBaud Params.default .later true true 1200 = some (0x2710#16, 0x0200#16)
      ∧ encodeBaud Params.default .later true true 12000000 = some (0x0000#16, 0x0200#16) := by decide

/-- EighthsByClass: 184 on both classes (V-B1, V-B3), and low nibble 1 at 57600. -/
theorem witness_EighthsByClass :
    Params.default.roundoff = defaultRoundoff ∧ 16 ≤ 3000000 * 16 / 184
      ∧ divisorEighths Params.default.roundoff .early 3000000 184 = 130434
      ∧ divisorEighths Params.default.roundoff .later 3000000 184 = 130435 ∧ 3000000 * 16 / 57600 % 16 = 1
      ∧ divisorEighths Params.default.roundoff .early 3000000 57600 = 416 := by decide

/-- RoundingStaysClose, at the least divisor. -/
theorem witness_RoundingStaysClose : Params.default.wf = true ∧ 16 ≤ 3000000 * 16 / 3000000 := by decide

/-- DivisorStaysInBounds, at the ends of both ranges. -/
theorem witness_DivisorStaysInBounds :
    speedInRange (clockOf false) 183 = true ∧ speedInRange (clockOf false) 3000000 = true
      ∧ speedInRange (clockOf true) 1200 = true ∧ speedInRange (clockOf true) 12000000 = true ∧ 1200 ≤ 12000000 := by decide

/-- OnlySpeed183Overflows, at 183 and next to it. -/
theorem witness_OnlySpeed183Overflows :
    Params.default.wf = true ∧ GenClass.early ≠ .fixed ∧ (encodeBaud Params.default .early false false 183).isSome = true
      ∧ (encodeBaud Params.default .early false false 184).isSome = true := by decide

/-- Speed183PacksByOverflow. -/
theorem witness_Speed183PacksByOverflow : Params.default.roundoff = defaultRoundoff ∧ GenClass.later ≠ .fixed := by decide

/-- PackedDivisorFields, at the largest fields and at an index the table moves. -/
theorem witness_PackedDivisorFields :
    16383 < 16384 ∧ [0, 3, 2, 4, 1, 5, 6, 7][7]? = some 7 ∧ [0, 3, 2, 4, 1, 5, 6, 7][3]? = some 4 := by decide

/-- The default parameters with the other fraction policy. -/
def dropping : Params := { Params.default with int1Policy := .anyNonzero }

/-- IntegralOneReencoded on the 3 MHz clock: S3 and V-B1 for 8, 12, 10 and 9 eighths, and a speed for each of the others. -/
theorem witness_IntegralOneReencoded :
    GenClass.later ≠ .fixed ∧ (false = true ↔ false = true ∧ 1200 ≤ 3000000)
      ∧ encodeBaud Params.default .later false false 3000000 = some (0x0000#16, 0x0000#16)
      ∧ divisorEighths Params.default.roundoff .later 3000000 3000000 = 8
      ∧ encodeBaud Params.default .later false false 2600000 = some (0xC001#16, 0x0000#16)
      ∧ divisorEighths Params.default.roundoff .later 3000000 2600000 = 9
      ∧ encodeBaud Params.default .later false false 2400000 = some (0x8001#16, 0x0000#16)
      ∧ divisorEighths Params.default.roundoff .later 3000000 2400000 = 10
      ∧ encodeBaud Params.default .later false false 2000000 = some (0x0001#16, 0x0000#16)
      ∧ divisorEighths Params.default.roundoff .later 3000000 2000000 = 12
      ∧ (encodeBaud Params.default .later false false 2181818).isSome = true
      ∧ divisorEighths Params.default.roundoff .later 3000000 2181818 = 11
      ∧ (encodeBaud Params.default .later false false 1846153).isSome = true
      ∧ divisorEighths Params.default.roundoff .later 3000000 1846153 = 13
      ∧ (encodeBaud Params.default .later false false 1714285).isSome = true
      ∧ divisorEighths Params.default.roundoff .later 3000000 1714285 = 14
      ∧ (encodeBaud Params.default .later false false 1600000).isSome = true
      ∧ divisorEighths Params.default.roundoff .later 3000000 1600000 = 15 := by decide

/-- IntegralOneReencoded on the 12 MHz clock (S3, V-B5), and under `any_nonzero` on both clocks (V-B1, V-B5). -/
theorem witness_IntegralOneReencoded_fast :
    (true = true ↔ true = true ∧ 1200 ≤ 8000000)
      ∧ encodeBaud Params.default .later true true 12000000 = some (0x0000#16, highHalf true true 0)
      ∧ divisorEighths Params.default.roundoff .later 12000000 12000000 = 8
      ∧ encodeBaud Params.default .later true true 8000000 = some (0x0001#16, highHalf true true 0)
      ∧ divisorEighths Params.default.roundoff .later 12000000 8000000 = 12
      ∧ encodeBaud Params.default .later true true 10400000 = some (0xC001#16, highHalf true true 0)
      ∧ highHalf true true 0 = 0x0200#16 ∧ dropping.int1Policy = .anyNonzero
      ∧ encodeBaud dropping .later true true 10400000 = some (0x0001#16, 0x0200#16)
      ∧ encodeBaud dropping .later false false 2600000 = some (0x0001#16, 0x0000#16) := by decide

/-- BaudRoundTrip, at S1's instance, with its bounds. -/
theorem witness_BaudRoundTrip :
    Params.default.wf = true ∧ Params.default.int1Policy = .halfOnly ∧ GenClass.later ≠ .fixed ∧ 115200 ≠ 183
      ∧ encodeBaud Params.default .later false false 115200 = some (0x001A#16, 0x0000#16)
      ∧ decodeBaud false 0x001A#16 0x0000#16 = some 115384 ∧ 115200 * 100 / 103 = 111844 ∧ 115200 * 100 / 97 = 118762 := by decide

/-- AnyNonzeroBreaksRoundTrip. -/
theorem witness_AnyNonzeroBreaksRoundTrip :
    dropping.roundoff = defaultRoundoff ∧ dropping.int1Policy = .anyNonzero ∧ GenClass.later ≠ .fixed := by decide

/-- ConfigWritesWireConfig, at both ends of DBITS and with the largest PARITY and FLOW. -/
theorem witness_ConfigWritesWireConfig :
    plain.pvalid = true ∧ 5 ≤ (5#4).toNat ∧ (5#4).toNat ≤ 8 ∧ 5 ≤ (8#4).toNat ∧ (8#4).toNat ≤ 8 ∧ (2#2).toNat < 3
      ∧ encodeBaud plain.cfg plain.gen.cls plain.hindex plain.clk12m (19200#32).toNat = some (0x809C#16, 0x0000#16) := by decide

/-- ConfigUnreachableSpeed. -/
theorem witness_ConfigUnreachableSpeed :
    plain.pvalid = true ∧ 5 ≤ (8#4).toNat ∧ (8#4).toNat ≤ 8 ∧ (0#2).toNat < 3
      ∧ encodeBaud plain.cfg plain.gen.cls plain.hindex plain.clk12m (100#32).toNat = none := by decide

/-- BreakChangesBit14Only, both clauses. -/
theorem witness_BreakChangesBit14Only : plain.pvalid = true ∧ State.reset.pvalid = false := by decide

/-- RegisterCommandsFrame, for RESOLVE, CONFIG and BREAK. -/
theorem witness_RegisterCommandsFrame :
    (∃ t, exec (.resolve 0x0600#16 0#8 true) State.reset = .next t ∧ t.pvalid = true)
      ∧ (∃ t, exec (.config 115200#32 8#4 0#2 false 0#2 0#8 0#8) plain = .next t ∧ t.wvalid = true)
      ∧ (∃ t, exec (.brk true) plain = .next t ∧ t.lastLcw = 0x4000#16)
      ∧ Instr.brk true ≠ .frame ∧ ∀ len, Instr.brk true ≠ .parse len :=
  ⟨⟨_, rfl, by decide⟩, ⟨_, rfl, by decide⟩, ⟨_, rfl, by decide⟩, by decide, fun _ h => by cases h⟩

/-- HeaderlessFrame. -/
theorem witness_HeaderlessFrame : (pending plain 100).pvalid = true ∧ (pending plain 100).hdrlen = 0#1
    ∧ (pending plain 100).cfg.wf = true := by decide

/-- HeaderedFrameChunks, at the largest number of bytes a buffer of 128 takes (vector V-F2). -/
theorem witness_HeaderedFrameChunks :
    (pending (oldest 128) 126).pvalid = true ∧ (pending (oldest 128) 126).hdrlen = 1#1
      ∧ (pending (oldest 128) 126).cfg.wf = true ∧ 0 < (pending (oldest 128) 126).txq.length
      ∧ (pending (oldest 128) 126).txq.length + ((pending (oldest 128) 126).txq.length + 62) / 63
        = (pending (oldest 128) 126).cfg.obufCap :=
  ⟨by decide, by decide, by decide, by simp [pending], by simp only [pending, List.length_map, List.length_range]; rfl⟩

/-- HeaderedFrameLosesNothing, FirstChunkHeader and FrameWritesBelowOlenOnly, at the least capacity. -/
theorem witness_FirstChunkHeader :
    (pending (oldest 2) 5).pvalid = true ∧ (pending (oldest 2) 5).hdrlen = 1#1 ∧ (pending (oldest 2) 5).cfg.wf = true
      ∧ 0 < (pending (oldest 2) 5).txq.length := by decide

/-- FrameFrame. -/
theorem witness_FrameFrame : ∃ t, exec .frame (pending plain 3) = .next t ∧ t.olen = 3#16 := ⟨_, rfl, by decide⟩

/-- ShortBufferResubmits, at the largest short length. -/
theorem witness_ShortBufferResubmits : plain.pvalid = true ∧ plain.cfg.wf = true ∧ (1#16).toNat < 2 := by decide

/-- ParseForwardsPayloadAndStatus, ParseByteCount and NotifyExactlyOnChange, at both ends of LEN. -/
theorem witness_ParseForwardsPayloadAndStatus :
    plain.pvalid = true ∧ plain.cfg.wf = true ∧ 2 ≤ (2#16).toNat ∧ (2#16).toNat ≤ plain.cfg.ibufCap ∧ 2 ≤ (128#16).toNat
      ∧ (128#16).toNat ≤ plain.cfg.ibufCap := by decide

/-- ParseForwardsPayloadAndStatus and ParseByteCount at a trailing byte (V-S2, LEN 65): one header, 62 payload bytes, byte 64 neither. -/
theorem witness_ParseForwardsPayloadAndStatus_trailing :
    2 ≤ (65#16).toNat ∧ (65#16).toNat ≤ plain.cfg.ibufCap ∧ plain.cfg.inMaxpkt = 64 ∧ (65#16).toNat % 64 = 1
      ∧ headerOffsets 64 65 = [0] ∧ (payloadOffsets 64 65).length = 62 ∧ 64 ∉ payloadOffsets 64 65 := by decide

/-- The clauses of NotifyExactlyOnChange: the first status, an unchanged one, a changed modem part and a changed line part
(program P4). -/
theorem witness_NotifyExactlyOnChange :
    replyOf (exec (.parse 2#16) (received plain [0x00#8, 0x00#8])) = some (.completion 0x0800#16)
      ∧ replyOf (exec (.parse 2#16) (received { plain with svalid := true } [0x00#8, 0x60#8])) = some (.completion 0x0000#16)
      ∧ replyOf (exec (.parse 2#16) (received { plain with svalid := true } [0x10#8, 0x00#8])) = some (.completion 0x0800#16)
      ∧ replyOf (exec (.parse 2#16) (received { plain with svalid := true } [0x00#8, 0x02#8])) = some (.completion 0x0800#16) := by
  decide

/-- TwoHeaderBuffer, at the least IBUF_CAP it allows. -/
theorem witness_TwoHeaderBuffer :
    (resolved (Params.withCaps 64 19 12) .g4 false false 0#8).pvalid = true
      ∧ (resolved (Params.withCaps 64 19 12) .g4 false false 0#8).cfg.inMaxpkt = 12
      ∧ 19 ≤ (resolved (Params.withCaps 64 19 12) .g4 false false 0#8).cfg.ibufCap := by decide

/-- RepeatedStatusIsSilent and ParseFrame. -/
theorem witness_RepeatedStatusIsSilent :
    (received plain [0x31#8, 0x60#8, 0x68#8]).pvalid = true ∧ (received plain [0x31#8, 0x60#8, 0x68#8]).cfg.wf = true
      ∧ 2 ≤ (3#16).toNat ∧ (3#16).toNat ≤ (received plain [0x31#8, 0x60#8, 0x68#8]).cfg.ibufCap
      ∧ ibufFilled (received plain [0x31#8, 0x60#8, 0x68#8]) (3#16).toNat
      ∧ ∃ t, exec (.parse 3#16) (received plain [0x31#8, 0x60#8, 0x68#8]) = .next t ∧ t.rxq = [0x68#8] :=
  ⟨by decide, by decide, by decide, by decide, by unfold ibufFilled; decide, _, rfl, by decide⟩

/-- ParseSeesOnlyItsBuffer: two IBUFs that agree on the first three bytes only. -/
theorem witness_ParseSeesOnlyItsBuffer :
    ibufFilled (received plain [0x31#8, 0x60#8, 0x68#8]) (3#16).toNat
      ∧ (∀ a, a < (3#16).toNat → Memory.read? [(0, 0x31#8), (1, 0x60#8), (2, 0x68#8), (3, 0xEE#8)] a
        = Memory.read? (received plain [0x31#8, 0x60#8, 0x68#8]).ibuf a) := ⟨by unfold ibufFilled; decide, fun a h => by
    have h3 : a < 3 := h
    interval_cases a <;> rfl⟩

/-- HostMovesBytes: each of the three actions, the last offset of IBUF. -/
theorem witness_HostMovesBytes :
    plain.cfg.wf = true ∧ (hosted plain [.appendTx [1#8, 2#8]]).inbox = [.appendTx [1#8, 2#8]]
      ∧ (hosted plain [.writeIbuf 127 9#8]).inbox = [.writeIbuf 127 9#8] ∧ 127 < plain.cfg.ibufCap
      ∧ (hosted { plain with rxq := [1#8, 2#8] } [.consumeRx [1#8].length]).inbox = [.consumeRx 1]
      ∧ (hosted { plain with rxq := [1#8, 2#8] } [.consumeRx 1]).rxq = [1#8] ++ [2#8] := by decide

/-- HostReadsHaveNoSideEffect: the last register, the last offset of OBUF, and an offset below OLEN. -/
theorem witness_HostReadsHaveNoSideEffect :
    plain.cfg.wf = true ∧ (hosted plain [.readReg 16, .readReg 16]).inbox = .readReg 16 :: .readReg 16 :: [] ∧ 16 ≤ 16
      ∧ (hosted plain [.readObuf 63, .readObuf 63]).inbox = .readObuf 63 :: .readObuf 63 :: [] ∧ 63 < plain.cfg.obufCap
      ∧ 1 < busy.olen.toNat ∧ Memory.read? busy.obuf 1 = some 0x41#8 := by decide

/-- ResetActionResets and WaitsForTheHost. -/
theorem witness_ResetActionResets :
    busy.cfg.wf = true ∧ (hosted busy [.reset]).inbox = .reset :: [] ∧ busy.inbox = [] := by decide

end Sys2Proof.Tests
end

/-! What one step can do, said once with its guards: the command's part, the host action's part, and the step. An invariant of
`step` is then a case analysis over `CommandLeaves` and `ActionLeaves`. -/

namespace Sys2Proof.Machine

/-! ### Commands -/

/-- `CommandLeaves s i c u`: run in `s`, the command `i` completes with `c` and leaves `u` (`c` not handed over yet). -/
inductive CommandLeaves (s : State) : Instr → Completion → State → Prop where
  /-- An error (60_exceptions.md R214); which one, and when, is in the command's `_cases` lemma. -/
  | errored (i : Instr) (e : Status) : CommandLeaves s i { status := e } s
  /-- RESOLVE (40_profile.md R97). -/
  | resolved (rev : Half) (iface : Byte) (serial : Bool) (hp : s.pvalid = false) :
      CommandLeaves s (.resolve rev iface serial) { status := .ok, warn := (resolution s.cfg rev serial).warn }
        (s.setProfile (resolution s.cfg rev serial).gen (resolution s.cfg rev serial).caps
          (headerLength (resolution s.cfg rev serial).gen)
          (portNumber s.cfg (resolution s.cfg rev serial).multi iface) (resolution s.cfg rev serial).warn)
  /-- CONFIG (42_lineconfig.md R132). -/
  | configured (speed : BitVec 32) (dbits : BitVec 4) (parity : BitVec 2) (stop2 : Bool) (flow : BitVec 2) (xonc xoffc : Byte)
      (lo hi : Half) (hp : s.pvalid = true) (ho : lineOperandsOk dbits parity flow = true)
      (he : encodeBaud s.cfg s.gen.cls s.hindex s.clk12m speed.toNat = some (lo, hi)) :
      CommandLeaves s (.config speed dbits parity stop2 flow xonc xoffc) { status := .ok }
        (s.setWire lo hi (packLine dbits parity stop2) (packFlow flow xonc xoffc))
  /-- BREAK (42_lineconfig.md R133). -/
  | broke (on : Bool) (hp : s.pvalid = true) :
      CommandLeaves s (.brk on) { status := .ok } (s.setLastLcw (withBreak on s.lastLcw))
  /-- FRAME (43_framer.md R166). -/
  | framed (hp : s.pvalid = true) :
      CommandLeaves s .frame { status := .ok, submit := (framed s).used != 0 }
        (s.setFramed (framed s).obuf (framed s).txq (framed s).used).redraw
  /-- PARSE of a buffer shorter than a header (44_parser.md R181). -/
  | short (len : Half) (hp : s.pvalid = true) (hc : len.toNat ≤ s.cfg.ibufCap) (hl : len.toNat < 2) :
      CommandLeaves s (.parse len) { status := .shortBuffer, resubmit := true } s
  /-- PARSE (44_parser.md R185). -/
  | parsed (len : Half) (hp : s.pvalid = true) (hc : len.toNat ≤ s.cfg.ibufCap) (hl : 2 ≤ len.toNat) :
      CommandLeaves s (.parse len)
        { status := .ok
          notify := statusChanged s.svalid s.stModem (parsedModem s len.toNat) s.stLine (parsed s len.toNat).lsrAcc }
        (trackStatus (parsedModem s len.toNat) (parsed s len.toNat).lsrAcc (s.pushRx (parsed s len.toNat).payload)).redraw

/-- A command that raises completes with the error, in the state it started in. -/
theorem commandLeaves_of_raise {i : Instr} {e : Status} {s : State} (h : exec i s = raise e s) :
    ∃ c u, CommandLeaves s i c u ∧ exec i s = complete c u :=
  ⟨_, _, .errored i e, h⟩

/-- Every command completes, on every operand and in every state, as one of the cases of `CommandLeaves`. -/
theorem exec_leaves (i : Instr) (s : State) : ∃ c u, CommandLeaves s i c u ∧ exec i s = complete c u := by
  cases i with
  | resolve rev iface serial =>
    obtain ⟨-, h⟩ | ⟨hp, h⟩ := execResolve_cases rev iface serial s
    · exact commandLeaves_of_raise h
    · exact ⟨_, _, .resolved rev iface serial hp, h⟩
  | config speed dbits parity stop2 flow xonc xoffc =>
    obtain ⟨-, h⟩ | ⟨-, -, h⟩ | ⟨-, -, -, h⟩ | ⟨lo, hi, hp, ho, he, h⟩ :=
      execConfig_cases speed dbits parity stop2 flow xonc xoffc s
    · exact commandLeaves_of_raise h
    · exact commandLeaves_of_raise h
    · exact commandLeaves_of_raise h
    · exact ⟨_, _, .configured speed dbits parity stop2 flow xonc xoffc lo hi hp ho he, h⟩
  | brk on =>
    obtain ⟨-, h⟩ | ⟨hp, h⟩ := execBrk_cases on s
    · exact commandLeaves_of_raise h
    · exact ⟨_, _, .broke on hp, h⟩
  | frame =>
    obtain ⟨-, h⟩ | ⟨hp, h⟩ := execFrame_cases s
    · exact commandLeaves_of_raise h
    · exact ⟨_, _, .framed hp, h⟩
  | parse len =>
    obtain ⟨-, h⟩ | ⟨-, -, h⟩ | ⟨hp, hc, hl, h⟩ | ⟨hp, hc, hl, h⟩ := execParse_cases len s
    · exact commandLeaves_of_raise h
    · exact commandLeaves_of_raise h
    · exact ⟨_, _, .short len hp hc hl, h⟩
    · exact ⟨_, _, .parsed len hp hc hl, h⟩

/-! ### Host actions -/

/-- `ActionLeaves s a t`: performed in `s`, the host action `a` answers the next state `t` (20_memory.md R51). -/
inductive ActionLeaves (s : State) : HostAction → State → Prop where
  /-- A descriptor outside the table (30_encoding.md R68). -/
  | illegal (d : Descriptor) (e : DecodeError) (hd : decode d = .error e) :
      ActionLeaves s (.issue d) (s.answer (.completion ({ status := .errIllegalCmd } : Completion).record))
  /-- A descriptor of the table: its command. -/
  | command (d : Descriptor) (i : Instr) (c : Completion) (u : State) (hd : decode d = .ok i) (hu : CommandLeaves s i c u) :
      ActionLeaves s (.issue d) (u.answer (.completion c.record))
  | appended (bytes : List Byte) : ActionLeaves s (.appendTx bytes) { s with txq := s.txq ++ bytes }
  | wrote (offset : Nat) (b : Byte) (ho : offset < s.cfg.ibufCap) :
      ActionLeaves s (.writeIbuf offset b) { s with ibuf := Memory.write s.ibuf offset b }
  | readByte (offset : Nat) (ho : offset < s.cfg.obufCap) :
      ActionLeaves s (.readObuf offset) (s.answer (.byte (readObuf s offset)))
  | consumed (count : Nat) (hc : count ≤ s.rxq.length) :
      ActionLeaves s (.consumeRx count) ({ s with rxq := s.rxq.drop count }.answer (.bytes (s.rxq.take count)))
  | readRegister (number : Nat) (v : Half) (hv : registerValue s number = some v) :
      ActionLeaves s (.readReg number) (s.answer (.register v))
  | reset : ActionLeaves s .reset { State.resetWith s.cfg with inbox := s.inbox, draws := s.draws + 1 }

/-- An issued descriptor completes: with an error, or as its command does. -/
theorem hostIssue_next {d : Descriptor} {s t : State} (h : hostIssue d s = .next t) : ActionLeaves s (.issue d) t := by
  unfold hostIssue at h
  split at h
  · rename_i i hd
    obtain ⟨c, u, hu, hc⟩ := exec_leaves i s
    rw [hc] at h
    rw [complete_next h]
    exact .command d i c u hd hu
  · rename_i e hd
    rw [raise_next h]
    exact .illegal d e hd

/-- A register read that answers a next state read a register there is (10_state.md R13). -/
theorem hostReadReg_next {number : Nat} {s t : State} (h : hostReadReg number s = .next t) :
    ActionLeaves s (.readReg number) t := by
  unfold hostReadReg at h
  split at h
  · rename_i v hv
    cases h
    exact .readRegister number v hv
  · cases h

/-- A host action that answers a next state was in range and left it as one of the cases of `ActionLeaves`. -/
theorem hostAct_next {a : HostAction} {s t : State} (h : hostAct a s = .next t) : ActionLeaves s a t := by
  cases a with
  | issue d => exact hostIssue_next h
  | appendTx bytes =>
    cases h
    exact .appended bytes
  | writeIbuf offset b =>
    simp only [hostAct, hostWriteIbuf] at h
    split at h <;> cases h
    exact .wrote offset b ‹_›
  | readObuf offset =>
    simp only [hostAct, hostReadObuf] at h
    split at h <;> cases h
    exact .readByte offset ‹_›
  | consumeRx count =>
    simp only [hostAct, hostConsumeRx] at h
    split at h <;> cases h
    exact .consumed count ‹_›
  | readReg number => exact hostReadReg_next h
  | reset =>
    cases h
    exact .reset

/-! ### The step -/

/-- A step that answers a next state waited for the host, or performed the oldest action (70_reset_and_hazards.md R242, R250). -/
theorem step_next_cases {s t : State} (h : step s = .next t) :
    (s.inbox = [] ∧ t = s.advance []) ∨ ∃ a rest, s.inbox = a :: rest ∧ ActionLeaves (s.advance rest) a t := by
  obtain ⟨-, hs⟩ := step_next h
  cases hi : s.inbox with
  | nil =>
    rw [serveHost_nil s hi] at hs
    exact .inl ⟨rfl, (Host.Outcome.next.inj hs).symm⟩
  | cons a rest =>
    rw [serveHost_cons s a rest hi] at hs
    exact .inr ⟨a, rest, rfl, hostAct_next hs⟩

end Sys2Proof.Machine

/-! The parameters are configuration, not state (00_scope.md R6): no command, no host action and so no step writes them. -/

namespace Sys2Proof.Machine

@[simp] theorem trackStatus_cfg (m : BitVec 4) (l : Byte) (s : State) : (trackStatus m l s).cfg = s.cfg := by
  obtain ⟨h, -⟩ | ⟨h, -⟩ := trackStatus_cases m l s <;> simp [h]

/-- No command writes the parameters. -/
theorem CommandLeaves.cfg_eq {s u : State} {i : Instr} {c : Completion} (h : CommandLeaves s i c u) : u.cfg = s.cfg := by
  cases h with
  | errored | short => rfl
  | resolved | configured | broke | framed | parsed => simp

/-- No host action writes the parameters; reset keeps those it starts from. -/
theorem ActionLeaves.cfg_eq {s t : State} {a : HostAction} (h : ActionLeaves s a t) : t.cfg = s.cfg := by
  cases h with
  | command d i c u hd hu => simp [hu.cfg_eq]
  | illegal | readByte | readRegister | consumed => simp
  | appended | wrote | reset => rfl

/-- Settles O15: a step waits or performs one host action, and neither writes the parameters. -/
theorem stepKeepsParameters : Obligations.StepKeepsParameters := by
  intro s t h
  obtain ⟨-, rfl⟩ | ⟨a, rest, -, ha⟩ := step_next_cases h
  · simp
  · simpa using ha.cfg_eq

end Sys2Proof.Machine

/-! The register reads of 10_state.md R13 to R18, and the state after reset (R23). -/

namespace Sys2Proof.Machine

/-! ### Register reads -/

@[simp] theorem flagAt_false (n : Nat) : flagAt n false = 0#16 := by
  simp [flagAt]

/-- A one-bit register reads as its flag. -/
theorem flagAt_zero (b : Bool) : flagAt 0 b = BitVec.ofNat 16 b.toNat := by
  cases b <;> rfl

/-- A register of two flags reads as the first in bit 0 and the second in bit 1. -/
theorem flagAt_zero_or_flagAt_one (b c : Bool) : flagAt 0 b ||| flagAt 1 c = BitVec.ofNat 16 (b.toNat + 2 * c.toNat) := by
  cases b <;> cases c <;> rfl

/-- The registers 0 to 16 exist (10_state.md R13). -/
theorem exists_registerValue_of_le {n : Nat} (s : State) (h : n ≤ 16) : ∃ v, registerValue s n = some v := by
  interval_cases n <;> exact ⟨_, rfl⟩

/-- No register has a number above 16 (10_state.md R13). -/
theorem registerValue_eq_none_of_gt {n : Nat} (s : State) (h : 16 < n) : registerValue s n = none := by
  obtain ⟨k, rfl⟩ := Nat.exists_eq_add_of_le' h
  rfl

/-- Taking an action from the inbox changes no register. -/
@[simp] theorem registerValue_advance (s : State) (rest : List HostAction) (n : Nat) :
    registerValue (s.advance rest) n = registerValue s n := rfl

/-- Settles O59: flag registers by their bits, the narrower fields zero-extended, the 16-bit ones as they are. -/
theorem registerReads : Obligations.RegisterReads := by
  intro s
  have extended {w : Nat} (v : BitVec w) : some (v.setWidth 16) = some (BitVec.ofNat 16 v.toNat) :=
    congrArg some (BitVec.ofNat_toNat 16 v).symm
  refine ⟨congrArg some (flagAt_zero_or_flagAt_one _ _), ?_, congrArg some (flagAt_zero_or_flagAt_one _ _), extended _, extended _,
    rfl, rfl, rfl, extended _, extended _, extended _, congrArg some (flagAt_zero _), rfl, extended _, extended _,
    congrArg some (flagAt_zero _), rfl, fun n => registerValue_eq_none_of_gt s⟩
  rw [registerValue]
  cases s.gen <;> rfl

/-! ### The state after reset -/

/-- Every register reads 0 after reset (10_state.md R23). -/
theorem registerValue_resetWith (p : Params) {n : Nat} (h : n ≤ 16) : registerValue (State.resetWith p) n = some 0#16 := by
  interval_cases n <;> simp [registerValue, Gen.index]

/-- Settles O12. -/
theorem resetLeavesTheTable : Obligations.ResetLeavesTheTable := fun p =>
  ⟨fun _ => registerValue_resetWith p, State.resetWith_txq p, State.resetWith_rxq p, fun i => by simp⟩

/-- The invariant of 10_state.md R24 holds after reset, for parameters the spec allows. -/
theorem State.Inv.resetWith {p : Params} (hp : p.wf = true) : (State.resetWith p).Inv where
  params := hp
  header := by simp
  plainG0 _ := ⟨rfl, rfl, rfl⟩
  lcwNoBreak := by simp
  lastLcw := by simp
  olenBound := by simp
  lineMasked := by simp
  unresolved _ := rfl
  obufWf := rfl
  ibufWf := rfl
  obufBelow := rfl
  ibufBelow := rfl
  obufFilled i hi := absurd hi (by simp)

/-- Settles O13. -/
theorem resetMeetsInv : Obligations.ResetMeetsInv :=
  ⟨fun _ => State.Inv.resetWith, State.Inv.resetWith (by decide)⟩

end Sys2Proof.Machine

/-! What a step does with the action at hand: the issue of a legal descriptor, and the host's reads (20_memory.md R51). -/

namespace Sys2Proof.Machine

/-- Under parameters the spec allows a step performs the oldest host action. -/
theorem step_cons {s : State} {a : HostAction} {rest : List HostAction} (hw : s.cfg.wf = true) (hi : s.inbox = a :: rest) :
    step s = hostAct a (s.advance rest) := by
  rw [step_eq s hw, serveHost_cons s a rest hi]

/-- The issue of a descriptor that decodes runs its command. -/
theorem hostAct_issue_of_decode {d : Descriptor} {i : Instr} (s : State) (hd : decode d = .ok i) :
    hostAct (.issue d) s = exec i s := by
  simp only [hostAct, hostIssue, hd]

/-- Settles O5. -/
theorem stepRunsIssuedCommand : Obligations.StepRunsIssuedCommand := by
  intro s d rest i hw hi hd
  rw [step_cons hw hi, hostAct_issue_of_decode _ hd]
  rfl

/-- A step that reads a register hands over its value and changes nothing else. -/
theorem step_readReg {s : State} {n : Nat} {rest : List HostAction} {v : Half} (hw : s.cfg.wf = true)
    (hi : s.inbox = .readReg n :: rest) (hv : registerValue s n = some v) :
    step s = .next { s with inbox := rest, reply := some (.register v) } := by
  rw [step_cons hw hi]
  simp only [hostAct, hostReadReg, registerValue_advance, hv]
  rfl

/-- A step that reads `OBUF[i]` hands over its byte and changes nothing else. -/
theorem step_readObuf {s : State} {i : Nat} {rest : List HostAction} (hw : s.cfg.wf = true)
    (hi : s.inbox = .readObuf i :: rest) (hc : i < s.cfg.obufCap) :
    step s = .next { s with inbox := rest, reply := some (.byte (readObuf s i)) } := by
  rw [step_cons hw hi]
  exact if_pos hc

/-- Below OLEN a read of OBUF gives the byte FRAME left there. -/
theorem readObuf_of_lt_olen {s : State} {i : Nat} {b : Byte} (hi : i < s.olen.toNat) (hb : Memory.read? s.obuf i = some b) :
    readObuf s i = b := by
  rw [readObuf, if_pos hi, hb, Option.getD_some]

/-- Settles O54: the second read is the same lemma at the state the first one leaves, where no register and no byte differs. -/
theorem hostReadsHaveNoSideEffect : Obligations.HostReadsHaveNoSideEffect := by
  intro s rest hw
  refine ⟨fun n hn hi => ?_, fun i hc hi => ⟨fun b => readObuf_of_lt_olen, step_readObuf hw hi hc, ?_⟩⟩
  · obtain ⟨v, hv⟩ := exists_registerValue_of_le s hn
    exact ⟨v, hv, step_readReg hw hi hv, step_readReg hw rfl hv⟩
  · exact step_readObuf hw rfl hc

end Sys2Proof.Machine

/-! Which registers, buffers and queues each command and each host action leaves unchanged (10_state.md R14 to R18). -/

namespace Sys2Proof.Machine

variable {s t u : State} {i : Instr} {c : Completion} {a : HostAction}

/-- A format's decoder answers no command but its own. -/
theorem eq_of_ite_ok_eq_ok {p : Prop} [Decidable p] {e : DecodeError} {j : Instr}
    (h : (if p then Except.ok j else .error e) = .ok i) : j = i := by
  split at h <;> cases h
  rfl

/-- The opcode field of a descriptor that decodes is its command's (30_encoding.md R61). -/
theorem opcOf_of_decode {d : Descriptor} (h : decode d = .ok i) : opcOf d = Laws.EncodedOpcode.opcode i := by
  unfold decode at h
  split_ifs at h with h1 h2 h3 h4 h5
  · rw [h1, ← eq_of_ite_ok_eq_ok h, Laws.EncodedOpcode.opcode]
  · rw [h2, ← eq_of_ite_ok_eq_ok h, Laws.EncodedOpcode.opcode]
  · rw [h3, ← eq_of_ite_ok_eq_ok h, Laws.EncodedOpcode.opcode]
  · rw [h4, ← eq_of_ite_ok_eq_ok h, Laws.EncodedOpcode.opcode]
  · rw [h5, ← eq_of_ite_ok_eq_ok h, Laws.EncodedOpcode.opcode]

/-! ### What stays -/

/-- The DeviceProfile registers agree (10_state.md R14). -/
def SameProfile (s t : State) : Prop :=
  t.pvalid = s.pvalid ∧ t.warn = s.warn ∧ t.gen = s.gen ∧ t.hindex = s.hindex ∧ t.clk12m = s.clk12m ∧ t.hdrlen = s.hdrlen
    ∧ t.portno = s.portno

/-- The WireConfig registers agree (10_state.md R15). -/
def SameWire (s t : State) : Prop :=
  t.baudLo = s.baudLo ∧ t.baudHi = s.baudHi ∧ t.lcw = s.lcw ∧ t.flowSel = s.flowSel ∧ t.xon = s.xon ∧ t.xoff = s.xoff
    ∧ t.wvalid = s.wvalid

/-- The buffers, the queues, the draw counter that selects their unspecified bytes, OLEN, the StatusTracker registers and the
inbox agree (10_state.md R17, R18, R20, R21). -/
structure SameStore (s t : State) : Prop where
  obuf : t.obuf = s.obuf
  ibuf : t.ibuf = s.ibuf
  draws : t.draws = s.draws
  olen : t.olen = s.olen
  txq : t.txq = s.txq
  rxq : t.rxq = s.rxq
  stModem : t.stModem = s.stModem
  stLine : t.stLine = s.stLine
  svalid : t.svalid = s.svalid
  inbox : t.inbox = s.inbox

@[refl] theorem SameProfile.refl (s : State) : SameProfile s s := ⟨rfl, rfl, rfl, rfl, rfl, rfl, rfl⟩

@[refl] theorem SameWire.refl (s : State) : SameWire s s := ⟨rfl, rfl, rfl, rfl, rfl, rfl, rfl⟩

/-- PARSE reads the same bytes from stores that agree. -/
theorem SameStore.readIbuf_eq (h : SameStore s t) (n : Nat) : readIbuf t n = readIbuf s n := by
  rw [readIbuf, h.ibuf, h.draws, readIbuf]

/-- The host reads the same bytes from stores that agree. -/
theorem SameStore.readObuf_eq (h : SameStore s t) (n : Nat) : readObuf t n = readObuf s n := by
  rw [readObuf, h.olen, h.obuf, h.draws, readObuf]

/-! ### Commands -/

theorem trackStatus_sameProfile (m : BitVec 4) (l : Byte) (s : State) : SameProfile s (trackStatus m l s) := by
  obtain ⟨h, -⟩ | ⟨h, -⟩ := trackStatus_cases m l s
  · rw [h]
    exact .refl s
  · rw [h]

theorem trackStatus_sameWire (m : BitVec 4) (l : Byte) (s : State) : SameWire s (trackStatus m l s) := by
  obtain ⟨h, -⟩ | ⟨h, -⟩ := trackStatus_cases m l s
  · rw [h]
    exact .refl s
  · rw [h]

/-- Only RESOLVE before a profile exists writes the DeviceProfile registers (10_state.md R14). -/
theorem CommandLeaves.sameProfile (h : CommandLeaves s i c u)
    (hi : s.pvalid = false → ∀ rev iface serial, i ≠ .resolve rev iface serial) : SameProfile s u := by
  cases h with
  | errored | configured | broke | framed | short => exact .refl s
  | resolved rev iface serial hp => exact absurd rfl (hi hp rev iface serial)
  | parsed => exact trackStatus_sameProfile _ _ (s.pushRx _)

/-- Only CONFIG writes the WireConfig registers (10_state.md R15). -/
theorem CommandLeaves.sameWire (h : CommandLeaves s i c u)
    (hi : ∀ speed dbits parity stop2 flow xonc xoffc, i ≠ .config speed dbits parity stop2 flow xonc xoffc) : SameWire s u := by
  cases h with
  | errored | resolved | broke | framed | short => exact .refl s
  | configured speed dbits parity stop2 flow xonc xoffc => exact absurd rfl (hi speed dbits parity stop2 flow xonc xoffc)
  | parsed => exact trackStatus_sameWire _ _ (s.pushRx _)

/-- Only FRAME and PARSE touch the buffers, the queues and the registers that go with them (10_state.md R17, R18). -/
theorem CommandLeaves.sameStore (h : CommandLeaves s i c u) (hf : i ≠ .frame) (hp : ∀ len, i ≠ .parse len) : SameStore s u := by
  cases h with
  | errored | resolved | configured | broke => constructor <;> rfl
  | framed => exact absurd rfl hf
  | short len | parsed len => exact absurd rfl (hp len)

/-- RESOLVE does not write LAST_LCW (10_state.md R16). -/
theorem CommandLeaves.lastLcw_eq_of_resolve {rev : Half} {iface : Byte} {serial : Bool}
    (h : CommandLeaves s (.resolve rev iface serial) c u) : u.lastLcw = s.lastLcw := by
  cases h <;> rfl

/-- Settles O38: the frames of the commands, at the state before the completion is handed over. -/
theorem registerCommandsFrame : Obligations.RegisterCommandsFrame := by
  intro i s t h hf hp
  obtain ⟨c, u, hu, he⟩ := exec_leaves i s
  obtain rfl := complete_next (he ▸ h)
  have hs : SameStore s u := hu.sameStore hf hp
  refine ⟨fun a => congrArg (Memory.read? · a) hs.obuf, hs.readIbuf_eq, hs.readObuf_eq, hs.txq, hs.rxq, hs.stModem, hs.stLine,
    hs.svalid, hs.olen, hs.inbox, hu.cfg_eq, fun hi => hu.sameProfile fun _ => hi, hu.sameWire, ?_⟩
  rintro ⟨rev, iface, serial, rfl⟩
  exact hu.lastLcw_eq_of_resolve

/-! ### Host actions and the step -/

/-- Once a profile exists, no host action but reset writes the DeviceProfile registers (10_state.md R14). -/
theorem ActionLeaves.sameProfile (h : ActionLeaves s a t) (ha : a ≠ .reset) (hp : s.pvalid = true) : SameProfile s t := by
  cases h with
  | command d i c u hd hu => exact hu.sameProfile fun hn => by simp [hp] at hn
  | illegal | appended | wrote | readByte | consumed | readRegister => exact .refl s
  | reset => exact absurd rfl ha

/-- No host action but reset and the issue of CONFIG writes the WireConfig registers (10_state.md R15). -/
theorem ActionLeaves.sameWire (h : ActionLeaves s a t) (ha : a ≠ .reset) (hd : ∀ d, a = .issue d → opcOf d ≠ 0x2#4) :
    SameWire s t := by
  cases h with
  | command d i c u hdec hu =>
    refine hu.sameWire fun speed dbits parity stop2 flow xonc xoffc hi => hd d rfl ?_
    rw [opcOf_of_decode hdec, hi, Laws.EncodedOpcode.opcode]
  | illegal | appended | wrote | readByte | consumed | readRegister => exact .refl s
  | reset => exact absurd rfl ha

/-- Settles O16. -/
theorem profileImmutable : Obligations.ProfileImmutable := by
  intro s t hp hr h
  obtain ⟨-, rfl⟩ | ⟨a, rest, hi, ha⟩ := step_next_cases h
  · exact SameProfile.refl s
  · exact ha.sameProfile (by simpa [hi] using hr) hp

/-- Settles O17: a descriptor whose opcode is not CONFIG's does not decode to CONFIG. -/
theorem wireConfigOnlyByConfig : Obligations.WireConfigOnlyByConfig := by
  intro s t hr hd h
  obtain ⟨-, rfl⟩ | ⟨a, rest, hi, ha⟩ := step_next_cases h
  · exact SameWire.refl s
  · exact ha.sameWire (by simpa [hi] using hr) fun d ha' => hd d (by rw [hi, ha', List.head?_cons])

end Sys2Proof.Machine

/-! Every step keeps the invariant of 10_state.md R24: the facts about the values each command writes, then the commands, the host
actions and the step. -/

namespace Sys2Proof.Machine

variable {s t u : State} {i : Instr} {c : Completion} {a : HostAction}

/-! ### The values CONFIG, BREAK and RESOLVE write -/

theorem getLsbD_breakBit (n : Nat) : breakBit.getLsbD n = decide (n = 14) := by
  rw [show breakBit = BitVec.twoPow 16 14 from rfl, BitVec.getLsbD_twoPow]
  simp [eq_comm]

/-- PackLine leaves the break bit 0 (42_lineconfig.md R130). -/
theorem packLine_break (dbits : BitVec 4) (parity : BitVec 2) (stop2 : Bool) : (packLine dbits parity stop2).getLsbD 14 = false := by
  simp only [packLine, BitVec.getLsbD_or]
  split_ifs <;> simp

/-- The mask of R24 (d) takes the break bit away. -/
theorem not_breakBit : ~~~breakBit = 0xBFFF#16 := rfl

/-- R24 (d) compares line-control values without the break bit; one whose break bit is 0 stays as it is. -/
theorem and_not_breakBit_of_break_clear {v : Half} (h : v.getLsbD 14 = false) : v &&& 0xBFFF#16 = v := by
  rw [← not_breakBit]
  refine BitVec.eq_of_getLsbD_eq fun n hn => ?_
  rw [BitVec.getLsbD_and, BitVec.getLsbD_not, getLsbD_breakBit]
  by_cases hb : n = 14
  · rw [hb, h, Bool.false_and]
  · simp [hb, hn]

/-- BREAK changes no other bit than the break bit (42_lineconfig.md R133). -/
theorem withBreak_and_not_breakBit (on : Bool) (v : Half) : withBreak on v &&& 0xBFFF#16 = v &&& 0xBFFF#16 := by
  rw [← not_breakBit]
  cases on with
  | false => simp [withBreak, BitVec.and_assoc]
  | true =>
    ext n hn
    simp [withBreak, Bool.and_or_distrib_right]

/-- HDRLEN is 1 for G0 alone (40_profile.md R95). -/
theorem headerLength_eq_one_iff (g : Gen) : headerLength g = 1#1 ↔ g = .g0 := by
  cases g <;> decide

/-- The constraints on a parameter set, one by one (00_scope.md R6, 40_profile.md R92, R94). -/
theorem Params.wf_iff {p : Params} : p.wf = true ↔
    capOk p.obufCap = true ∧ capOk p.ibufCap = true ∧ capOk p.inMaxpkt = true
      ∧ p.profileTable.any (fun r => r.code == erratumCode) = true
      ∧ p.profileTable.all (rowOk p.revThreshold) = true
      ∧ fallbackOk p.fallbackGen = true
      ∧ p.roundoff.length = 16
      ∧ p.roundoff.all (fun r => decide (-3 ≤ r) && decide (r ≤ 4)) = true
      ∧ p.lsrMask.length = 8 := by
  simp only [Params.wf, Bool.and_eq_true, beq_iff_eq, and_assoc]

/-- A capacity fits the 16-bit registers (00_scope.md R6). -/
theorem le_of_capOk {n : Nat} (h : capOk n = true) : n ≤ 65535 := by
  simp only [capOk, Bool.and_eq_true, decide_eq_true_eq] at h
  exact h.2

/-- A G0 row is single-port without flags (40_profile.md R92). -/
theorem plain_of_rowOk {threshold : Half} {r : ProfileRow} (h : rowOk threshold r = true) (hg : r.gen = .g0) :
    r.multiport = false ∧ r.caps.hindex = false ∧ r.caps.clk12m = false := by
  simpa [rowOk, hg, and_assoc] using (Bool.and_eq_true_iff.1 h).2

/-- The erratum never gives G0 (40_profile.md R93). -/
theorem gen_eq_of_rowGen_eq_g0 {r : ProfileRow} {rev : Half} {serial : Bool} (h : rowGen r rev serial = .g0) : r.gen = .g0 := by
  unfold rowGen at h
  split_ifs at h
  exact h

/-- A code that resolves to G0 resolves to a single-port chip without flags: its row has none, the low fallback has none, and the
high fallback is not G0 (40_profile.md R92, R94). -/
theorem resolution_plain_of_g0 {p : Params} (hp : p.wf = true) {rev : Half} {serial : Bool}
    (hg : (resolution p rev serial).gen = .g0) :
    (resolution p rev serial).multi = false ∧ (resolution p rev serial).caps.hindex = false
      ∧ (resolution p rev serial).caps.clk12m = false := by
  obtain ⟨-, -, -, -, hrows, hfallback, -⟩ := Params.wf_iff.1 hp
  unfold resolution at hg ⊢
  cases hf : p.profileTable.find? (fun r => r.code == rev) with
  | some r =>
    rw [hf] at hg
    exact plain_of_rowOk (List.all_eq_true.1 hrows r (List.mem_of_find?_eq_some hf)) (gen_eq_of_rowGen_eq_g0 hg)
  | none =>
    simp only [hf] at hg ⊢
    split_ifs at hg ⊢
    · exact ⟨rfl, rfl, rfl⟩
    · exact absurd hg (by simpa [fallbackOk] using hfallback)

/-! ### The updates -/

namespace State.Inv

theorem advance (h : s.Inv) (rest : List HostAction) : (s.advance rest).Inv := { h with }

theorem answer (h : s.Inv) (r : Reply) : (s.answer r).Inv := { h with }

theorem redraw (h : s.Inv) : s.redraw.Inv := { h with }

theorem pushRx (h : s.Inv) (bs : List Byte) : (s.pushRx bs).Inv := { h with }

theorem setTxq (h : s.Inv) (q : List Byte) : State.Inv { s with txq := q } := { h with }

theorem setRxq (h : s.Inv) (q : List Byte) : State.Inv { s with rxq := q } := { h with }

theorem writeIbuf (h : s.Inv) {offset : Nat} (ho : offset < s.cfg.ibufCap) (b : Byte) :
    State.Inv { s with ibuf := Memory.write s.ibuf offset b } :=
  { h with
    ibufWf := Memory.wf_write _ _ _ h.ibufWf
    ibufBelow := Memory.below_write _ _ _ _ ho h.ibufBelow }

/-- A line-control value with break 0 meets R24 (c) and (d). -/
theorem setWire (h : s.Inv) (lo hi : Half) {v : Half} (hv : v.getLsbD 14 = false) (f : FlowWire) :
    (s.setWire lo hi v f).Inv :=
  { h with
    lcwNoBreak := hv
    lastLcw := and_not_breakBit_of_break_clear hv }

theorem setLastLcw_withBreak (h : s.Inv) (on : Bool) : (s.setLastLcw (withBreak on s.lastLcw)).Inv :=
  { h with lastLcw := (withBreak_and_not_breakBit on s.lastLcw).trans h.lastLcw }

/-- Status of a resolved instance, masked for its generation, meets R24 (f). -/
theorem setTracker (h : s.Inv) (hp : s.pvalid = true) (m : BitVec 4) {l : Byte}
    (hl : l &&& ~~~s.cfg.maskOf s.gen = 0#8) : (s.setTracker m l).Inv :=
  { h with
    lineMasked := hl
    unresolved := fun hn => absurd (hp.symm.trans hn) (by decide) }

theorem trackStatus (h : s.Inv) (hp : s.pvalid = true) (m : BitVec 4) {l : Byte}
    (hl : l &&& ~~~s.cfg.maskOf s.gen = 0#8) : (trackStatus m l s).Inv := by
  obtain ⟨he, -⟩ | ⟨he, -⟩ := trackStatus_cases m l s <;> rw [he]
  · exact h.setTracker hp m hl
  · exact h

/-- What a framing discipline leaves meets R24 (e): OLEN, at most OBUF_CAP, is not truncated. -/
theorem setFramed (h : s.Inv) {f : Framed} (hf : f.Frames s.cfg.obufCap s.obuf s.txq) : (s.setFramed f.obuf f.txq f.used).Inv := by
  have hn : (s.setFramed f.obuf f.txq f.used).olen.toNat = f.used :=
    Nat.mod_eq_of_lt (by have := hf.used_le; have := le_of_capOk (Params.wf_iff.1 h.params).1; omega)
  exact { h with
    olenBound := hn.le.trans hf.used_le
    obufWf := hf.wf h.obufWf
    obufBelow := hf.below h.obufBelow
    obufFilled := fun i hi => hf.filled i (hn ▸ hi) }

/-- The profile RESOLVE writes meets R24 (a) and (b), and no status is recorded yet. -/
theorem setProfile_resolution (h : s.Inv) (hp : s.pvalid = false) (rev : Half) (iface : Byte) (serial : Bool) :
    (s.setProfile (resolution s.cfg rev serial).gen (resolution s.cfg rev serial).caps
      (headerLength (resolution s.cfg rev serial).gen)
      (portNumber s.cfg (resolution s.cfg rev serial).multi iface) (resolution s.cfg rev serial).warn).Inv :=
  { h with
    header := by simp [headerLength_eq_one_iff]
    plainG0 := fun hg => by
      obtain ⟨hm, hflags⟩ := resolution_plain_of_g0 h.params hg
      exact ⟨by simp [hm, portNumber], hflags⟩
    lineMasked := by simp [h.unresolved hp]
    unresolved := fun hn => absurd hn (by simp) }

end State.Inv

/-! ### Commands, host actions and the step -/

theorem CommandLeaves.inv (h : CommandLeaves s i c u) (hs : s.Inv) : u.Inv := by
  cases h with
  | errored | short => exact hs
  | resolved rev iface serial hp => exact hs.setProfile_resolution hp rev iface serial
  | configured => exact hs.setWire _ _ (packLine_break _ _ _) _
  | broke on => exact hs.setLastLcw_withBreak on
  | framed => exact (hs.setFramed (framed_frames s)).redraw
  | parsed len hp =>
    exact ((hs.pushRx _).trackStatus hp _ (parseLoop_lsrAcc_masked s _ _ _ _ (BitVec.zero_and ..))).redraw

theorem ActionLeaves.inv (h : ActionLeaves s a t) (hs : s.Inv) : t.Inv := by
  cases h with
  | illegal | readByte | readRegister => exact hs.answer _
  | command d i c u hd hu => exact (hu.inv hs).answer _
  | appended => exact hs.setTxq _
  | wrote offset b ho => exact hs.writeIbuf ho b
  | consumed => exact (hs.setRxq _).answer _
  | reset => exact { State.Inv.resetWith hs.params with }

/-- Settles O14. -/
theorem stepKeepsInv : Obligations.StepKeepsInv := by
  intro s t hs h
  obtain ⟨-, rfl⟩ | ⟨a, rest, -, ha⟩ := step_next_cases h
  · exact hs.advance []
  · exact ha.inv (hs.advance rest)

end Sys2Proof.Machine

/-! What the host's queue and buffer actions do (20_memory.md R51), what FRAME leaves in OBUF (R41), and that PARSE sees no other
byte of IBUF than its own (R42). -/

namespace Sys2Proof.Machine

variable {s : State} {rest : List HostAction}

/-! ### The host's actions -/

/-- A step that appends to TXQ puts the bytes at its back and changes nothing else. -/
theorem step_appendTx {bytes : List Byte} (hw : s.cfg.wf = true) (hi : s.inbox = .appendTx bytes :: rest) :
    step s = .next { s with inbox := rest, reply := none, txq := s.txq ++ bytes } := by
  rw [step_cons hw hi]
  rfl

/-- A step that writes `IBUF[offset]` stores the byte there and changes no register, no queue and not OBUF. -/
theorem step_writeIbuf {offset : Nat} {b : Byte} (hw : s.cfg.wf = true) (hi : s.inbox = .writeIbuf offset b :: rest)
    (ho : offset < s.cfg.ibufCap) :
    step s = .next { s with inbox := rest, reply := none, ibuf := Memory.write s.ibuf offset b } := by
  rw [step_cons hw hi]
  exact if_pos ho

/-- A step that consumes bytes RXQ holds takes them from its front, hands them over and changes nothing else. -/
theorem step_consumeRx {count : Nat} (hw : s.cfg.wf = true) (hi : s.inbox = .consumeRx count :: rest)
    (hc : count ≤ s.rxq.length) :
    step s = .next { s with inbox := rest, reply := some (.bytes (s.rxq.take count)), rxq := s.rxq.drop count } := by
  rw [step_cons hw hi]
  exact if_pos hc

/-- Settles O53. -/
theorem hostMovesBytes : Obligations.HostMovesBytes := by
  intro s rest hw
  refine ⟨fun bytes hi => step_appendTx hw hi, fun offset b hi ho => ⟨_, step_writeIbuf hw hi ho, rfl, fun a => ?_⟩,
    fun front back hi hq => ?_⟩
  · exact Memory.read?_write s.ibuf offset a b
  · rw [step_consumeRx hw hi (by simp [hq]), hq, List.take_left, List.drop_left]

/-! ### FRAME -/

/-- With a profile FRAME frames (43_framer.md R166). -/
theorem exec_frame_of_pvalid (hp : s.pvalid = true) :
    exec .frame s = complete { status := .ok, submit := (framed s).used != 0 }
      (s.setFramed (framed s).obuf (framed s).txq (framed s).used).redraw := by
  obtain ⟨hn, -⟩ | ⟨-, h⟩ := execFrame_cases s
  · simp [hp] at hn
  · exact h

/-- What either discipline uses of OBUF fits OLEN's 16 bits (10_state.md R18, R24 (e)). -/
theorem toNat_ofNat_framed_used (hw : s.cfg.wf = true) : (BitVec.ofNat 16 (framed s).used).toNat = (framed s).used := by
  have hle := (framed_frames s).used_le
  have hcap := le_of_capOk (Params.wf_iff.1 hw).1
  exact Nat.mod_eq_of_lt (by omega)

/-- Settles O43: OLEN is what the discipline used of OBUF, not truncated, and `framed_frames` says what lies below and above. -/
theorem frameWritesBelowOlenOnly : Obligations.FrameWritesBelowOlenOnly := by
  intro s hp hw
  have hf := framed_frames s
  have hn := toNat_ofNat_framed_used hw
  refine ⟨_, exec_frame_of_pvalid hp, hn.le.trans hf.used_le, fun a ha => hf.above a (hn ▸ ha),
    fun a ha => hf.filled a (hn ▸ ha), ?_⟩
  have hz : BitVec.ofNat 16 (framed s).used = 0#16 ↔ (framed s).used = 0 := by
    rw [← BitVec.toNat_inj, hn]
    rfl
  simp [record_submit, hz]

/-! ### PARSE -/

/-- `s` with other bytes in IBUF and other unspecified bytes (20_memory.md R52, log 6). -/
def State.withIbuf (s : State) (ibuf : List Host.Cell) (draws : Nat) : State := { s with ibuf := ibuf, draws := draws }

variable {ibuf : List Host.Cell} {draws : Nat}

@[simp] theorem State.withIbuf_pvalid (s : State) (ibuf : List Host.Cell) (draws : Nat) :
    (s.withIbuf ibuf draws).pvalid = s.pvalid := rfl

@[simp] theorem State.withIbuf_cfg (s : State) (ibuf : List Host.Cell) (draws : Nat) :
    (s.withIbuf ibuf draws).cfg = s.cfg := rfl

/-- No register shows IBUF. -/
theorem registerValue_withIbuf (s : State) (ibuf : List Host.Cell) (draws n : Nat) :
    registerValue (s.withIbuf ibuf draws) n = registerValue s n := rfl

/-- The tracker does not see IBUF, and leaves it alone. -/
theorem trackStatus_withIbuf (m : BitVec 4) (l : Byte) (s : State) (ibuf : List Host.Cell) (draws : Nat) :
    trackStatus m l (s.withIbuf ibuf draws) = (trackStatus m l s).withIbuf ibuf draws := by
  rw [trackStatus, trackStatus, apply_ite (State.withIbuf · ibuf draws)]
  rfl

/-- Where the host has written a byte, PARSE reads it, whatever the unspecified bytes are (20_memory.md R52). -/
theorem readIbuf_withIbuf {a : Nat} (hf : (Memory.read? s.ibuf a).isSome = true)
    (h : Memory.read? ibuf a = Memory.read? s.ibuf a) : readIbuf (s.withIbuf ibuf draws) a = readIbuf s a := by
  obtain ⟨b, hb⟩ := Option.isSome_iff_exists.1 hf
  simp [readIbuf, State.withIbuf, h, hb]

/-- The packet loop gives the same over every IBUF that agrees on the bytes the host has filled (20_memory.md R42). -/
theorem parsed_withIbuf {len : Nat} (hf : ibufFilled s len)
    (h : ∀ a, a < len → Memory.read? ibuf a = Memory.read? s.ibuf a) : parsed (s.withIbuf ibuf draws) len = parsed s len :=
  parseLoop_congr s (s.withIbuf ibuf draws) rfl rfl len 0 len ParseAcc.start fun a _ ha =>
    have ha : a < len := by omega
    readIbuf_withIbuf (hf a ha) (h a ha)

/-- Over such an IBUF, PARSE completes alike and leaves the same but for IBUF and the unspecified bytes. -/
theorem exec_parse_withIbuf {len : Half} (hf : ibufFilled s len.toNat)
    (h : ∀ a, a < len.toNat → Memory.read? ibuf a = Memory.read? s.ibuf a) :
    ∃ c u draws', exec (.parse len) s = complete c u
      ∧ exec (.parse len) (s.withIbuf ibuf draws) = complete c (u.withIbuf ibuf draws') := by
  have hp : parsed (s.withIbuf ibuf draws) len.toNat = parsed s len.toNat := parsed_withIbuf hf h
  have hm : parsedModem (s.withIbuf ibuf draws) len.toNat = parsedModem s len.toNat := by rw [parsedModem, hp, parsedModem]
  simp only [exec, execParse, hp, hm, State.withIbuf_pvalid, State.withIbuf_cfg]
  split_ifs
  · exact ⟨_, s, draws, rfl, rfl⟩
  · exact ⟨_, s, draws, rfl, rfl⟩
  · exact ⟨_, s, draws, rfl, rfl⟩
  · exact ⟨_, _, draws + 1, rfl, congrArg (fun u => complete _ u.redraw) (trackStatus_withIbuf _ _ (s.pushRx _) ibuf draws)⟩

/-- Settles O52. -/
theorem parseSeesOnlyItsBuffer : Obligations.ParseSeesOnlyItsBuffer := by
  intro s ibuf' draws' len hf h
  obtain ⟨c, u, d, hs, ht⟩ := exec_parse_withIbuf (draws := draws') hf h
  exact ⟨_, _, hs, ht, rfl, rfl, registerValue_withIbuf u ibuf' d⟩

end Sys2Proof.Machine

/-! Decoder, encoder and opcode table agree (30_encoding.md R60 to R68): fields that cover the descriptor determine it, so each
format is a list of fields, and `decode_eq_ok_iff` says that decoder and encoder are inverse. -/

namespace Sys2Proof

/-! ### Descriptors by their fields -/

/-- The fields of widths `ws`, one above the other from bit `lo` on, are the same in both descriptors. -/
def sameFields (d e : Descriptor) : Nat → List Nat → Prop
  | _, [] => True
  | lo, w :: ws => fieldOf d lo w = fieldOf e lo w ∧ sameFields d e (lo + w) ws

/-- Two fields at one place agree exactly when the bits there do. -/
theorem fieldOf_eq_iff (d e : Descriptor) (lo w : Nat) :
    fieldOf d lo w = fieldOf e lo w ↔ ∀ n, lo ≤ n → n < lo + w → d.getLsbD n = e.getLsbD n := by
  constructor
  · intro h n hl hw
    have hb := congrArg (fun v => v.getLsbD (n - lo)) h
    simpa only [getLsbD_fieldOf, show n - lo < w by omega, Nat.add_sub_cancel' hl, decide_true, Bool.true_and] using hb
  · intro h
    refine BitVec.eq_of_getLsbD_eq fun i hi => ?_
    rw [getLsbD_fieldOf, getLsbD_fieldOf, h (lo + i) (by omega) (by omega)]

/-- Fields one above the other agree exactly when the field they make up does. -/
theorem sameFields_iff (d e : Descriptor) (ws : List Nat) : ∀ lo : Nat,
    sameFields d e lo ws ↔ fieldOf d lo ws.sum = fieldOf e lo ws.sum := by
  induction ws with
  | nil => exact fun lo => iff_of_true trivial (BitVec.eq_of_zero_length rfl)
  | cons w ws ih =>
    intro lo
    simp only [sameFields, ih, fieldOf_eq_iff, List.sum_cons]
    constructor
    · rintro ⟨hlow, hhigh⟩ n hl hn
      by_cases hw : n < lo + w
      · exact hlow n hl hw
      · exact hhigh n (by omega) (by omega)
    · intro h
      exact ⟨fun n hl hn => h n hl (by omega), fun n hl hn => h n (by omega) (by omega)⟩

/-- Fields that cover `D[63:0]` determine the descriptor (30_encoding.md R60). -/
theorem eq_iff_sameFields {d e : Descriptor} (ws : List Nat) (h : ws.sum = 64) : d = e ↔ sameFields d e 0 ws := by
  have whole (d : Descriptor) : fieldOf d 0 64 = d := by simp [fieldOf]
  rw [sameFields_iff, h, whole, whole]

/-- One bit is a field of width 1. -/
theorem bitOf_eq_iff (d : Descriptor) (n : Nat) (b : Bool) : bitOf d n = b ↔ fieldOf d n 1 = BitVec.ofBool b := by
  have hf : fieldOf d n 1 = BitVec.ofBool (bitOf d n) := by
    refine BitVec.eq_of_getLsbD_eq fun i hi => ?_
    obtain rfl : i = 0 := by omega
    rw [getLsbD_fieldOf]
    simp [bitOf]
  rw [hf, BitVec.ofBool_eq_iff_eq]

/-- A field of two masked descriptors masks the fields. -/
theorem fieldOf_and (a b : Descriptor) (lo w : Nat) : fieldOf (a &&& b) lo w = fieldOf a lo w &&& fieldOf b lo w := by
  refine BitVec.eq_of_getLsbD_eq fun i hi => ?_
  simp only [getLsbD_fieldOf, BitVec.getLsbD_and, hi, decide_true, Bool.true_and]

/-! ### Encoded commands by their fields -/

/-- Format RESOLVE (30_encoding.md R62). -/
theorem eq_encode_resolve_iff (d : Descriptor) (rev : Half) (iface : Byte) (serial : Bool) :
    d = encode (.resolve rev iface serial) ↔ opcOf d = 0x1#4 ∧ fieldOf d 25 35 = 0#35
      ∧ fieldOf d 0 16 = rev ∧ fieldOf d 16 8 = iface ∧ bitOf d 24 = serial := by
  rw [eq_iff_sameFields [16, 8, 1, 35, 4] rfl]
  simp (disch := omega) [sameFields, encode, opcOf_eq_fieldOf, bitOf_eq_iff, fieldOf_or, fieldOf_placeField,
    fieldOf_placeField_apart]
  tauto

/-- Format CONFIG (30_encoding.md R63). -/
theorem eq_encode_config_iff (d : Descriptor) (speed : BitVec 32) (dbits : BitVec 4) (parity : BitVec 2) (stop2 : Bool)
    (flow : BitVec 2) (xonc xoffc : Byte) :
    d = encode (.config speed dbits parity stop2 flow xonc xoffc) ↔
      opcOf d = 0x2#4 ∧ (fieldOf d 42 2 = 0#2 ∧ fieldOf d 39 1 = 0#1)
      ∧ fieldOf d 0 32 = speed ∧ fieldOf d 32 4 = dbits ∧ fieldOf d 36 2 = parity ∧ bitOf d 38 = stop2
      ∧ fieldOf d 40 2 = flow ∧ fieldOf d 44 8 = xonc ∧ fieldOf d 52 8 = xoffc := by
  rw [eq_iff_sameFields [32, 4, 2, 1, 1, 2, 2, 8, 8, 4] rfl]
  simp (disch := omega) [sameFields, encode, opcOf_eq_fieldOf, bitOf_eq_iff, fieldOf_or, fieldOf_placeField,
    fieldOf_placeField_apart]
  tauto

/-- Format BREAK (30_encoding.md R64). -/
theorem eq_encode_brk_iff (d : Descriptor) (on : Bool) :
    d = encode (.brk on) ↔ opcOf d = 0x3#4 ∧ fieldOf d 1 59 = 0#59 ∧ bitOf d 0 = on := by
  rw [eq_iff_sameFields [1, 59, 4] rfl]
  simp (disch := omega) [sameFields, encode, opcOf_eq_fieldOf, bitOf_eq_iff, fieldOf_or, fieldOf_placeField,
    fieldOf_placeField_apart]
  tauto

/-- Format FRAME (30_encoding.md R65). -/
theorem eq_encode_frame_iff (d : Descriptor) : d = encode .frame ↔ opcOf d = 0x4#4 ∧ fieldOf d 0 60 = 0#60 := by
  rw [eq_iff_sameFields [60, 4] rfl]
  simp (disch := omega) [sameFields, encode, opcOf_eq_fieldOf, fieldOf_placeField, fieldOf_placeField_apart]
  tauto

/-- Format PARSE (30_encoding.md R66). -/
theorem eq_encode_parse_iff (d : Descriptor) (len : Half) :
    d = encode (.parse len) ↔ opcOf d = 0x5#4 ∧ fieldOf d 16 44 = 0#44 ∧ fieldOf d 0 16 = len := by
  rw [eq_iff_sameFields [16, 44, 4] rfl]
  simp (disch := omega) [sameFields, encode, opcOf_eq_fieldOf, fieldOf_or, fieldOf_placeField, fieldOf_placeField_apart]
  tauto

/-! ### What decodes -/

/-- RESOLVE decodes when its zero bits are 0, to the fields of R62. -/
theorem decodeResolve_eq_ok_iff (d : Descriptor) (i : Instr) : decodeResolve d = .ok i ↔
    fieldOf d 25 35 = 0#35 ∧ .resolve (fieldOf d 0 16) (fieldOf d 16 8) (bitOf d 24) = i := by
  unfold decodeResolve
  split_ifs with h <;> simp [h]

/-- CONFIG decodes when its zero bits are 0, to the fields of R63. -/
theorem decodeConfig_eq_ok_iff (d : Descriptor) (i : Instr) : decodeConfig d = .ok i ↔
    (fieldOf d 42 2 = 0#2 ∧ fieldOf d 39 1 = 0#1) ∧ .config (fieldOf d 0 32) (fieldOf d 32 4) (fieldOf d 36 2) (bitOf d 38)
      (fieldOf d 40 2) (fieldOf d 44 8) (fieldOf d 52 8) = i := by
  unfold decodeConfig
  split_ifs with h <;> simp [h]

/-- BREAK decodes when its zero bits are 0, to the bit of R64. -/
theorem decodeBrk_eq_ok_iff (d : Descriptor) (i : Instr) : decodeBrk d = .ok i ↔
    fieldOf d 1 59 = 0#59 ∧ .brk (bitOf d 0) = i := by
  unfold decodeBrk
  split_ifs with h <;> simp [h]

/-- FRAME decodes when its zero bits are 0 (R65). -/
theorem decodeFrame_eq_ok_iff (d : Descriptor) (i : Instr) : decodeFrame d = .ok i ↔
    fieldOf d 0 60 = 0#60 ∧ .frame = i := by
  unfold decodeFrame
  split_ifs with h <;> simp [h]

/-- PARSE decodes when its zero bits are 0, to the field of R66. -/
theorem decodeParse_eq_ok_iff (d : Descriptor) (i : Instr) : decodeParse d = .ok i ↔
    fieldOf d 16 44 = 0#44 ∧ .parse (fieldOf d 0 16) = i := by
  unfold decodeParse
  split_ifs with h <;> simp [h]

/-- The opcode map (30_encoding.md R61, R68): a descriptor decodes under its opcode's format alone. -/
theorem decode_eq_ok_iff_format (d : Descriptor) (i : Instr) : decode d = .ok i ↔
    (opcOf d = 0x1#4 ∧ decodeResolve d = .ok i) ∨ (opcOf d = 0x2#4 ∧ decodeConfig d = .ok i)
    ∨ (opcOf d = 0x3#4 ∧ decodeBrk d = .ok i) ∨ (opcOf d = 0x4#4 ∧ decodeFrame d = .ok i)
    ∨ (opcOf d = 0x5#4 ∧ decodeParse d = .ok i) := by
  unfold decode
  split_ifs with h1 h2 h3 h4 h5
  · simp [h1]
  · simp [h2]
  · simp [h3]
  · simp [h4]
  · simp [h5]
  · simp [h1, h2, h3, h4, h5]

/-- Decoder and encoder are inverse: a descriptor decodes to the one command that encodes to it. -/
theorem decode_eq_ok_iff (d : Descriptor) (i : Instr) : decode d = .ok i ↔ d = encode i := by
  rw [decode_eq_ok_iff_format, decodeResolve_eq_ok_iff, decodeConfig_eq_ok_iff, decodeBrk_eq_ok_iff, decodeFrame_eq_ok_iff,
    decodeParse_eq_ok_iff]
  cases i with
  | resolve rev iface serial => simp [eq_encode_resolve_iff]
  | config speed dbits parity stop2 flow xonc xoffc => simp [eq_encode_config_iff]
  | brk on => simp [eq_encode_brk_iff]
  | frame => simp [eq_encode_frame_iff]
  | parse len => simp [eq_encode_parse_iff]

/-- Settles O1. -/
theorem decodeOfEncode : Obligations.DecodeOfEncode := fun i => (decode_eq_ok_iff _ i).2 rfl

/-- Settles O2. -/
theorem encodeOfDecode : Obligations.EncodeOfDecode := fun d i h => ((decode_eq_ok_iff d i).1 h).symm

/-- Settles O4, by encoding the five commands. -/
theorem knownDescriptorsDecode : Obligations.KnownDescriptorsDecode := by
  simp only [Obligations.KnownDescriptorsDecode, decode_eq_ok_iff]
  decide

/-! ### The rows of the opcode table -/

/-- A row whose mask covers the opcode and one field that must be 0 right below it (30_encoding.md R62, R64 to R66). -/
theorem and_rowMask_eq_iff (d : Descriptor) (opc : BitVec 4) (lo w : Nat) (h : lo + w = 60) :
    d &&& (placeField (BitVec.allOnes 4) 60 ||| placeField (BitVec.allOnes w) lo) = placeField opc 60 ↔
      opcOf d = opc ∧ fieldOf d lo w = 0#w := by
  rw [eq_iff_sameFields [lo, w, 4] (by simp [← Nat.add_assoc, h])]
  simp (disch := omega) [sameFields, h, opcOf_eq_fieldOf, fieldOf_and, fieldOf_or, fieldOf_placeField, fieldOf_placeField_apart,
    -BitVec.reduceAllOnes, and_comm]

/-- CONFIG's row, whose mask covers the opcode and two fields that must be 0 (30_encoding.md R63). -/
theorem and_configMask_eq_iff (d : Descriptor) (opc : BitVec 4) :
    d &&& (placeField (BitVec.allOnes 4) 60 ||| placeField (BitVec.allOnes 2) 42 ||| placeField (BitVec.allOnes 1) 39)
        = placeField opc 60 ↔
      opcOf d = opc ∧ fieldOf d 42 2 = 0#2 ∧ fieldOf d 39 1 = 0#1 := by
  rw [eq_iff_sameFields [39, 1, 2, 2, 16, 4] rfl]
  simp (disch := omega) [sameFields, opcOf_eq_fieldOf, fieldOf_and, fieldOf_or, fieldOf_placeField, fieldOf_placeField_apart,
    -BitVec.reduceAllOnes, and_comm, and_assoc]

/-- A legal descriptor has an opcode of the map, and 0 where that opcode's format asks it (30_encoding.md R62 to R66). -/
theorem legalDescriptor_iff (d : Descriptor) : Machine.legalDescriptor d = true ↔
    (opcOf d = 0x1#4 ∧ fieldOf d 25 35 = 0#35) ∨ (opcOf d = 0x2#4 ∧ fieldOf d 42 2 = 0#2 ∧ fieldOf d 39 1 = 0#1)
    ∨ (opcOf d = 0x3#4 ∧ fieldOf d 1 59 = 0#59) ∨ (opcOf d = 0x4#4 ∧ fieldOf d 0 60 = 0#60)
    ∨ (opcOf d = 0x5#4 ∧ fieldOf d 16 44 = 0#44) := by
  simp only [Machine.legalDescriptor, Bool.or_eq_true, beq_iff_eq, or_assoc]
  exact or_congr (and_rowMask_eq_iff d 0x1#4 25 35 rfl) <| or_congr (and_configMask_eq_iff d 0x2#4) <|
    or_congr (and_rowMask_eq_iff d 0x3#4 1 59 rfl) <| or_congr (and_rowMask_eq_iff d 0x4#4 0 60 rfl) <|
    and_rowMask_eq_iff d 0x5#4 16 44 rfl

/-- Settles O3: under each opcode of the map the decoder and the table ask the same fields to be 0. -/
theorem decodeAcceptsExactlyTableRows : Obligations.DecodeAcceptsExactlyTableRows := by
  intro d
  simp only [legalDescriptor_iff, decode_eq_ok_iff_format, decodeResolve_eq_ok_iff, decodeConfig_eq_ok_iff, decodeBrk_eq_ok_iff,
    decodeFrame_eq_ok_iff, decodeParse_eq_ok_iff, exists_or, exists_and_left, exists_eq', and_true]

end Sys2Proof

namespace Sys2Proof.Machine

/-! ### Illegal descriptors -/

/-- A descriptor outside the opcode table does not decode (30_encoding.md R68). -/
theorem decode_error_of_not_legal {d : Descriptor} (h : legalDescriptor d = false) : ∃ e, decode d = .error e := by
  cases hd : decode d with
  | error e => exact ⟨e, rfl⟩
  | ok i => simp [(decodeAcceptsExactlyTableRows d).1 ⟨i, hd⟩] at h

/-- The issue of a descriptor that does not decode raises ERR_ILLEGAL_CMD (30_encoding.md R68). -/
theorem hostAct_issue_of_decode_error {d : Descriptor} {e : DecodeError} (s : State) (hd : decode d = .error e) :
    hostAct (.issue d) s = raise .errIllegalCmd s := by
  simp only [hostAct, hostIssue, hd]

/-- Settles O6. -/
theorem illegalDescriptorChangesNothing : Obligations.IllegalDescriptorChangesNothing := by
  intro s d rest hw hi hd
  obtain ⟨e, he⟩ := decode_error_of_not_legal hd
  rw [step_cons hw hi, hostAct_issue_of_decode_error _ he]
  rfl

/-! ### The completion record -/

/-- Settles O7: every case of `CommandLeaves` has a record of its own command's form. -/
theorem everyCommandReturnsACompletion : Obligations.EveryCommandReturnsACompletion := by
  intro i s
  obtain ⟨c, u, hl, h⟩ := exec_leaves i s
  refine ⟨_, c.record, h, rfl, ?_⟩
  cases hl with
  | errored _ e =>
    rw [record_error]
    cases e <;> simp [Status.code, errorRecord]
  | resolved =>
    rw [record_warn]
    split <;> simp [errorRecord]
  | configured | broke => simp [record_error, Status.code, errorRecord]
  | framed =>
    rw [record_submit]
    split <;> simp [errorRecord]
  | short => simp [record_short, errorRecord]
  | parsed =>
    rw [record_notify]
    split <;> simp [errorRecord]

end Sys2Proof.Machine

/-! The halves CONFIG sends: the index of the fixed table, and the packed divisor (30_encoding.md R70 to R72). -/

namespace Sys2Proof.Machine

/-! ### The fixed table -/

/-- A list without repeats holds a value at an index exactly when it is a member and the index is its own. -/
theorem getElem?_eq_some_iff_idxOf {l : List Nat} (hl : l.Nodup) (n a : Nat) : l[n]? = some a ↔ a ∈ l ∧ l.idxOf a = n := by
  constructor
  · intro h
    obtain ⟨hn, rfl⟩ := List.getElem?_eq_some_iff.1 h
    exact ⟨List.getElem_mem hn, hl.idxOf_getElem n hn⟩
  · rintro ⟨h, rfl⟩
    exact List.getElem?_idxOf h

/-- No speed is listed twice (30_encoding.md R71). -/
theorem fixedSpeeds_nodup : fixedSpeeds.Nodup := by decide

/-- A speed has the index at which the table lists it, and no other pair (41_baud.md R101). -/
theorem encodeBaudFixed_eq_some_iff (speed : Nat) (lo hi : Half) :
    encodeBaudFixed speed = some (lo, hi) ↔ hi = 0#16 ∧ fixedSpeeds[lo.toNat]? = some speed := by
  rw [getElem?_eq_some_iff_idxOf fixedSpeeds_nodup, encodeBaudFixed]
  by_cases hs : speed ∈ fixedSpeeds
  · have hlt : fixedSpeeds.idxOf speed < 10 := List.idxOf_lt_length_of_mem hs
    have hlo : BitVec.ofNat 16 (fixedSpeeds.idxOf speed) = lo ↔ fixedSpeeds.idxOf speed = lo.toNat := by
      rw [← BitVec.toNat_inj, BitVec.toNat_ofNat, Nat.mod_eq_of_lt (by omega)]
    simp [hs, hlo, eq_comm (a := hi), and_comm]
  · simp [hs]

/-- Settles O24. -/
theorem fixedTableExactMatch : Obligations.FixedTableExactMatch := fun _ _ _ => encodeBaudFixed_eq_some_iff

/-! ### The packed divisor -/

/-- The fields of P do not overlap while the integral part has 14 bits: their OR is their sum (30_encoding.md R70). -/
theorem toNat_packDivisor {integ frac : Nat} (fast : Bool) (hi : integ < 2 ^ 14) (hc : fracCode frac < 2 ^ 3) :
    (packDivisor integ frac fast).toNat = integ + 2 ^ 14 * fracCode frac + 2 ^ 17 * fast.toNat := by
  have hflag : (if fast then 1#32 else 0#32).toNat = fast.toNat := by cases fast <;> rfl
  have hlow : integ ||| 2 ^ 14 * fracCode frac = 2 ^ 14 * fracCode frac + integ := by
    rw [Nat.or_comm, ← Nat.two_pow_add_eq_or_of_lt hi]
  have hsum : (2 ^ 14 * fracCode frac + integ) ||| 2 ^ 17 * fast.toNat
      = 2 ^ 17 * fast.toNat + (2 ^ 14 * fracCode frac + integ) := by
    rw [Nat.or_comm, ← Nat.two_pow_add_eq_or_of_lt (by omega)]
  have hb := fast.toNat_lt
  simp only [packDivisor, BitVec.toNat_or, BitVec.toNat_shiftLeft, BitVec.toNat_ofNat, Nat.shiftLeft_eq, hflag]
  rw [Nat.mod_eq_of_lt (by omega : integ < 2 ^ 32), Nat.mod_eq_of_lt (by omega : fracCode frac < 2 ^ 32),
    Nat.mod_eq_of_lt (by omega), Nat.mod_eq_of_lt (by omega), Nat.mul_comm _ (2 ^ 14), Nat.mul_comm _ (2 ^ 17), hlow, hsum]
  omega

/-- The low half is the low 16 bits of P, the high half the rest, shifted left by 8 with HINDEX (41_baud.md R113). -/
theorem splitDivisor_eq (hindex : Bool) (P : BitVec 32) : splitDivisor hindex P =
    (BitVec.ofNat 16 P.toNat, BitVec.ofNat 16 ((if hindex then 256 else 1) * (P.toNat / 65536))) := by
  have hlow : P.extractLsb' 0 16 = BitVec.ofNat 16 P.toNat := by
    apply BitVec.eq_of_toNat_eq
    simp
  have hhigh : P.extractLsb' 16 16 = BitVec.ofNat 16 (P.toNat / 65536) := by
    apply BitVec.eq_of_toNat_eq
    simp [Nat.shiftRight_eq_div_pow]
  rw [splitDivisor, hlow, hhigh]
  cases hindex with
  | false => simp
  | true => rw [if_pos rfl, if_pos rfl, BitVec.shiftLeft_eq_mul_twoPow, Nat.mul_comm, BitVec.ofNat_mul]; rfl

/-- Settles O31. -/
theorem packedDivisorFields : Obligations.PackedDivisorFields := by
  intro integ frac code fast hi hc
  have hf : frac < 8 := (List.getElem?_eq_some_iff.1 hc).1
  have hfc : fracCode frac = code := by rw [fracCode, fracTab, List.getD_eq_getElem?_getD, hc]; rfl
  have hP := toNat_packDivisor fast hi (fracCode_lt frac hf)
  rw [hfc] at hP
  have hlt := hfc ▸ fracCode_lt frac hf
  have hflag : (if fast then 2 else 0) = 2 * fast.toNat := by cases fast <;> rfl
  have hlow : BitVec.ofNat 16 (packDivisor integ frac fast).toNat = BitVec.ofNat 16 (integ + 16384 * (code % 4)) := by
    apply BitVec.eq_of_toNat_eq
    rw [BitVec.toNat_ofNat, BitVec.toNat_ofNat]
    omega
  have hhigh : (packDivisor integ frac fast).toNat / 65536 = code / 4 + if fast then 2 else 0 := by
    omega
  rw [splitDivisor_eq, splitDivisor_eq, hlow, hhigh]
  exact ⟨hfc, by simp, by simp⟩

end Sys2Proof.Machine

/-! RESOLVE (40_profile.md R90 to R98): which resolution a code has, by the first row with the code and by the two fallbacks, and the
state and record RESOLVE leaves for it. -/

namespace Sys2Proof.Machine

/-! ### The generation and the port number -/

/-- SERIAL decides the generation of code 0x0200 (40_profile.md R93). -/
theorem rowGen_erratum (r : ProfileRow) (serial : Bool) : rowGen r erratumCode serial = if serial then .g1 else .g2 :=
  if_pos rfl

/-- SERIAL has no part in the generation of any other code (40_profile.md R93). -/
theorem rowGen_of_ne {rev : Half} (h : rev ≠ erratumCode) (r : ProfileRow) (serial : Bool) : rowGen r rev serial = r.gen :=
  if_neg h

/-- Neither generation of the erratum has headers (40_profile.md R93, R95). -/
theorem headerLength_erratum (serial : Bool) : headerLength (if serial then .g1 else .g2) = 0#1 := by
  cases serial <;> rfl

/-- The port sum wraps modulo 256 (40_profile.md R96). -/
theorem portNumber_eq (p : Params) (multi : Bool) (iface : Byte) :
    portNumber p multi iface = if multi then BitVec.ofNat 8 ((p.portBase.toNat + iface.toNat) % 256) else 0#8 := by
  have hsum : p.portBase + iface = BitVec.ofNat 8 ((p.portBase.toNat + iface.toNat) % 256) := by
    apply BitVec.eq_of_toNat_eq
    simp
  rw [portNumber, hsum]

/-! ### The resolution of a code -/

/-- A code with a row takes the first such row (40_profile.md R92). -/
theorem resolution_of_first_row {p : Params} {pre post : List ProfileRow} {r : ProfileRow} {rev : Half}
    (ht : p.profileTable = pre ++ r :: post) (hpre : ∀ q ∈ pre, q.code ≠ rev) (hr : r.code = rev) (serial : Bool) :
    resolution p rev serial = { gen := rowGen r rev serial, caps := r.caps, multi := r.multiport, warn := false } := by
  have hf : p.profileTable.find? (fun r => r.code == rev) = some r :=
    List.find?_eq_some_iff_append.2 ⟨by simpa using hr, pre, post, ht, by simpa using hpre⟩
  rw [resolution, hf]

/-- A code without a row takes the low or the high fallback (40_profile.md R94). -/
theorem resolution_of_no_row {p : Params} {rev : Half} (h : ∀ r ∈ p.profileTable, r.code ≠ rev) (serial : Bool) :
    resolution p rev serial =
      if rev.toNat < p.revThreshold.toNat then { gen := .g0, caps := Caps.none, multi := false, warn := false }
      else { gen := p.fallbackGen, caps := p.fallbackCaps, multi := false, warn := true } := by
  have hf : p.profileTable.find? (fun r => r.code == rev) = none := List.find?_eq_none.2 (by simpa using h)
  rw [resolution, hf]

/-- Every parameter set the spec allows has a first row for code 0x0200 (40_profile.md R92). -/
theorem exists_first_erratum_row {p : Params} (h : p.wf = true) :
    ∃ (pre post : List ProfileRow) (r : ProfileRow),
      p.profileTable = pre ++ r :: post ∧ (∀ q ∈ pre, q.code ≠ erratumCode) ∧ r.code = erratumCode := by
  obtain ⟨-, -, -, hany, -⟩ := Params.wf_iff.1 h
  obtain ⟨r, hf⟩ := Option.isSome_iff_exists.1 (List.find?_isSome.2 (List.any_eq_true.1 hany))
  obtain ⟨hr, pre, post, ht, hpre⟩ := List.find?_eq_some_iff_append.1 hf
  exact ⟨pre, post, r, ht, by simpa using hpre, by simpa using hr⟩

/-- With the default table a code has one of its seven rows, or none (40_profile.md R92 to R94, decision D10). -/
theorem gen_resolution_of_default {p : Params} (ht : p.profileTable = defaultProfileTable)
    (hthreshold : p.revThreshold = 0x0200#16) (hfallback : p.fallbackGen = .g4) (rev : Half) (serial : Bool) :
    (resolution p rev serial).gen =
      if rev.toNat < 0x0200 then .g0
      else if rev = 0x0200#16 then (if serial then .g1 else .g2)
      else if rev = 0x0400#16 then .g2
      else if rev = 0x0500#16 then .g3
      else if rev = 0x0600#16 then .g4
      else if rev = 0x0700#16 then .g5
      else if rev = 0x0800#16 then .g6
      else if rev = 0x0900#16 then .g7
      else .g4 := by
  by_cases hrow : ∃ r ∈ p.profileTable, r.code = rev
  · rw [resolution, ht]
    simp only [ht, defaultProfileTable, List.exists_mem_cons_iff, List.not_mem_nil, false_and, exists_false, or_false] at hrow
    obtain rfl | rfl | rfl | rfl | rfl | rfl | rfl := hrow <;> rfl
  · have hno : ∀ r ∈ p.profileTable, r.code ≠ rev := by simpa using hrow
    rw [resolution_of_no_row hno, hthreshold]
    simp only [ht, defaultProfileTable, List.forall_mem_cons, ne_comm] at hno
    obtain ⟨h2, h4, h5, h6, h7, h8, h9, -⟩ := hno
    simp only [h2, h4, h5, h6, h7, h8, h9, if_false]
    rw [apply_ite Resolution.gen, hfallback]
    rfl

/-! ### RESOLVE -/

/-- RESOLVE without a profile writes what the code resolves to, and completes with the warning alone (40_profile.md R97, R98). -/
theorem exec_resolve_of_resolution {s : State} {rev : Half} {serial : Bool} {r : Resolution} (hp : s.pvalid = false)
    (hr : resolution s.cfg rev serial = r) (iface : Byte) : exec (.resolve rev iface serial) s =
      .next ((s.setProfile r.gen r.caps (headerLength r.gen) (portNumber s.cfg r.multi iface) r.warn).answer
        (.completion (if r.warn then 0x0100#16 else 0x0000#16))) := by
  subst hr
  obtain ⟨ht, -⟩ | ⟨-, h⟩ := execResolve_cases rev iface serial s
  · exact absurd (hp.symm.trans ht) (by decide)
  · exact h.trans (by rw [complete_eq, record_warn])

/-- Settles O19. -/
theorem resolveTakesFirstRow : Obligations.ResolveTakesFirstRow := by
  intro s rev iface serial pre post r hp ht hpre hr hne
  have hres := resolution_of_first_row ht hpre hr serial
  rw [rowGen_of_ne hne] at hres
  rw [exec_resolve_of_resolution hp hres, portNumber_eq]
  rfl

/-- Settles O20. -/
theorem erratumResolvedBySerial : Obligations.ErratumResolvedBySerial := by
  intro s iface serial hp hwf
  obtain ⟨pre, post, r, ht, hpre, hr⟩ := exists_first_erratum_row hwf
  have hres := resolution_of_first_row ht hpre hr serial
  rw [rowGen_erratum] at hres
  refine ⟨pre, post, r, ht, hpre, hr, ?_⟩
  rw [← erratumCode, exec_resolve_of_resolution hp hres, headerLength_erratum, portNumber_eq]
  rfl

/-- Settles O22: neither fallback is a multi-port chip, so PORTNO is 0. -/
theorem resolveFallsBack : Obligations.ResolveFallsBack := by
  intro s rev iface serial hp hno
  have hres := resolution_of_no_row hno serial
  constructor
  · intro hlow
    rw [if_pos hlow] at hres
    exact exec_resolve_of_resolution hp hres iface
  · intro hhigh
    rw [if_neg (Nat.not_lt.2 hhigh)] at hres
    exact exec_resolve_of_resolution hp hres iface

/-- Settles O23: HDRLEN is 1 for G0 alone, and only a code below the threshold resolves to G0. -/
theorem defaultTableResolvesEveryCode : Obligations.DefaultTableResolvesEveryCode := by
  intro s rev iface serial hp ht hthreshold hfallback
  have hgen := gen_resolution_of_default ht hthreshold hfallback rev serial
  refine ⟨_, exec_resolve_of_resolution hp rfl iface, rfl, hgen, ?_⟩
  rw [State.answer_hdrlen, State.setProfile_hdrlen, headerLength_eq_one_iff, hgen]
  by_cases hlow : rev.toNat < 0x0200
  · simp only [hlow, if_true]
  · simp only [hlow, if_false, iff_false]
    split_ifs <;> decide

/-- Settles O21: SERIAL is an argument of the resolution alone, and there of the row's generation alone. -/
theorem serialIgnoredElsewhere : Obligations.SerialIgnoredElsewhere := by
  intro s rev iface a b hne
  have hres : resolution s.cfg rev a = resolution s.cfg rev b := by
    simp only [resolution, rowGen_of_ne hne]
  change execResolve rev iface a s = execResolve rev iface b s
  rw [execResolve, execResolve, hres]

end Sys2Proof.Machine

/-! The divisor classes' encoder (41_baud.md R102 to R118): the range of a clock, the rounding, the speeds accepted, and the decoder
as its inverse. -/

namespace Sys2Proof.Machine

/-! ### Reachability -/

/-- The flag of step 1 is the one the statements describe (41_baud.md R102). -/
theorem fastClock_eq {clk12m fast : Bool} {speed : Nat} (h : fast = true ↔ clk12m = true ∧ 1200 ≤ speed) :
    fastClock clk12m speed = fast := by
  rw [Bool.eq_iff_iff, h, fastClock, Bool.and_eq_true, decide_eq_true_eq]

/-- Step 2 with the clock step 1 has chosen: the fast clock's own lower bound, 732, lies below 1200 (41_baud.md R102, R103). -/
theorem speedInRange_iff {fast : Bool} {speed : Nat} (h : fast = true → 1200 ≤ speed) :
    speedInRange (clockOf fast) speed = true ↔ (if fast then 1200 else 183) ≤ speed ∧ speed ≤ clockOf fast := by
  simp only [speedInRange, Bool.and_eq_true, decide_eq_true_eq]
  cases fast with
  | false => rfl
  | true =>
    have h1200 := h rfl
    simp only [clockOf, if_true]
    omega

/-- Neither clock lets a speed below 183 through (41_baud.md R102, R103). -/
theorem speed_ge_of_inRange {fast : Bool} {speed : Nat} (hf : fast = true → 1200 ≤ speed)
    (h : speedInRange (clockOf fast) speed = true) : 183 ≤ speed :=
  ((speedInRange_iff hf).1 h).1.trans' (by split <;> decide)

/-- Step 6: both comparisons are inclusive (41_baud.md R110). -/
theorem withinTolerance_iff (hw speed : Nat) :
    withinTolerance hw speed = true ↔ speed * 100 / 103 ≤ hw ∧ hw ≤ speed * 100 / 97 := by
  rw [withinTolerance, Bool.and_eq_true, decide_eq_true_eq, decide_eq_true_eq]

/-- A speed step 2 stops has no encoding (41_baud.md R103). -/
theorem encodeBaud_eq_none {p : Params} {cls : GenClass} {hindex clk12m : Bool} {speed : Nat} (hc : cls ≠ .fixed)
    (h : speedInRange (clockOf (fastClock clk12m speed)) speed ≠ true) : encodeBaud p cls hindex clk12m speed = none :=
  Option.eq_none_iff_forall_ne_some.2 fun r hr => h ((encodeBaud_eq_some_iff p cls hindex clk12m speed r hc).1 hr).1

/-- Settles O25: below 1200 the clock is the slow one, whatever the flag. -/
theorem speedsOutsideRangeRejected : Obligations.SpeedsOutsideRangeRejected := by
  intro p cls hindex speed hc
  refine ⟨fun h => encodeBaud_eq_none hc ?_, fun h => encodeBaud_eq_none hc ?_⟩
  · rw [Ne, speedInRange_iff (fun hf => (fastClock_eq_true hf).2)]
    simp only [fastClock, clockOf, Bool.false_and, Bool.false_eq_true, if_false]
    omega
  · rw [Ne, speedInRange_iff (fun hf => (fastClock_eq_true hf).2)]
    by_cases hf : 1200 ≤ speed
    · simp only [fastClock, hf, clockOf, decide_true, Bool.true_and, if_true]
      omega
    · simp only [fastClock, hf, clockOf, decide_false, Bool.and_false, Bool.false_eq_true, if_false]
      omega

/-- Settles O57. -/
theorem speedAcceptedExactlyInTolerance : Obligations.SpeedAcceptedExactlyInTolerance := by
  intro p cls hindex clk12m fast clk speed d8 lo hi hc hfast hclk hd8
  obtain rfl : clk = clockOf fast := hclk
  rw [encodeBaud_eq_some_iff p cls hindex clk12m speed (lo, hi) hc, fastClock_eq hfast,
    speedInRange_iff (fun h => (hfast.1 h).2), withinTolerance_iff, ← hd8]
  simp only [and_assoc]

/-! ### Rounding -/

/-- The eighths of EARLY above the whole divisor, by the low nibble of the sixteenths (41_baud.md R108, last row). -/
def earlyEighths : List Nat := [0, 0, 1, 2, 2, 2, 4, 4, 4, 4, 4, 4, 8, 8, 8, 8]

/-- Steps 4 and 5 on every class but EARLY (41_baud.md R105, R107, R109). -/
theorem divisorEighths_of_ne_early {cls : GenClass} (hc : cls ≠ .early) (roundoff : List Int) (clk speed : Nat) :
    divisorEighths roundoff cls clk speed
      = if clk * 16 / speed % 16 = 1 then clk * 16 / speed / 16 * 8 else (clk * 16 / speed + 1) / 2 := by
  rw [divisorEighths, roundDivisor, if_neg hc]
  split <;> omega

/-- Steps 4 and 5 on EARLY with the default ROUNDOFF (41_baud.md R105, R106, R108, R109). -/
theorem divisorEighths_early_default (clk speed : Nat) :
    divisorEighths defaultRoundoff .early clk speed
      = clk * 16 / speed / 16 * 8 + earlyEighths.getD (clk * 16 / speed % 16) 0 := by
  rw [divisorEighths, roundDivisor, if_pos rfl]
  generalize clk * 16 / speed = d
  obtain ⟨n, hn⟩ : ∃ n, d % 16 = n := ⟨_, rfl⟩
  have hlt : n < 16 := by omega
  rw [hn]
  split
  case isTrue hone =>
    subst hone
    simp only [earlyEighths, List.getD_cons_zero, List.getD_cons_succ]
    omega
  case isFalse hone =>
    interval_cases n <;> simp only [defaultRoundoff, earlyEighths, List.getD_cons_zero, List.getD_cons_succ] <;> omega

/-- Settles O58. -/
theorem eighthsByClass : Obligations.EighthsByClass := by
  intro p clk speed
  refine ⟨divisorEighths_of_ne_early (by decide) p.roundoff clk speed, fun hr _ => ?_⟩
  rw [hr]
  exact divisorEighths_early_default clk speed

/-- Settles O26: whole divisors have fraction 0, so the fraction is the entry of `earlyEighths`. -/
theorem earlyReachesFourFractions : Obligations.EarlyReachesFourFractions := by
  intro clk speed
  have hentry : ∀ n < 16, earlyEighths.getD n 0 % 8 = 0 ∨ earlyEighths.getD n 0 % 8 = 1
      ∨ earlyEighths.getD n 0 % 8 = 2 ∨ earlyEighths.getD n 0 % 8 = 4 := by decide
  have hn := hentry (clk * 16 / speed % 16) (Nat.mod_lt _ (by decide))
  rw [divisorEighths_early_default, Nat.mul_add_mod_self_right]
  exact hn

/-- Settles O27: on EARLY the correction moves the divisor by -3 to 4, and the halving drops at most one more. -/
theorem roundingStaysClose : Obligations.RoundingStaysClose := by
  intro p cls clk speed hwf hd
  by_cases hc : cls = .early
  · have hr := roundoff_range p hwf (clk * 16 / speed % 16) (Nat.mod_lt _ (by decide))
    simp only [hc, ne_eq, not_true_eq_false, false_implies, and_true, divisorEighths, roundDivisor, if_true]
    split <;> omega
  · rw [divisorEighths_of_ne_early hc]
    split <;> omega

/-- The sixteenths fall as the speed grows; on the fast clock, from 1200 on, they stay below those of 300 on the slow one
(41_baud.md R102, R104). -/
theorem sixteenths_le {fast : Bool} {least speed : Nat} (hf : fast = true → 1200 ≤ speed) (h0 : 0 < least) (h300 : least ≤ 300)
    (h : least ≤ speed) : clockOf fast * 16 / speed ≤ 48000000 / least := by
  cases fast with
  | false => exact Nat.div_le_div_left h h0
  | true =>
    calc clockOf true * 16 / speed ≤ 192000000 / 1200 := Nat.div_le_div_left (hf rfl) (by decide)
      _ = 48000000 / 300 := rfl
      _ ≤ 48000000 / least := Nat.div_le_div_left h300 h0

/-- The sixteenths of a speed in range (41_baud.md R104, R115). -/
theorem sixteenths_bounds {fast : Bool} {speed : Nat} (hf : fast = true → 1200 ≤ speed)
    (h : speedInRange (clockOf fast) speed = true) : 16 ≤ clockOf fast * 16 / speed ∧ clockOf fast * 16 / speed ≤ 262295 := by
  have hlow := speed_ge_of_inRange hf h
  exact ⟨sixteenths_ge _ _ (by omega) ((speedInRange_iff hf).1 h).2, sixteenths_le hf (by decide) (by decide) hlow⟩

/-- Settles O28: both rounding rules are evaluated between the bounds of the sixteenths. -/
theorem divisorStaysInBounds : Obligations.DivisorStaysInBounds := by
  intro cls fast speed h hf
  obtain ⟨hlow, hhigh⟩ := sixteenths_bounds hf h
  refine ⟨hlow, hhigh, ?_⟩
  by_cases hc : cls = .early
  · have hentry : ∀ n < 16, earlyEighths.getD n 0 ≤ 8 ∧ (n < 8 → earlyEighths.getD n 0 ≤ 4) := by decide
    have hn := hentry (clockOf fast * 16 / speed % 16) (Nat.mod_lt _ (by decide))
    rw [hc, divisorEighths_early_default]
    omega
  · rw [divisorEighths_of_ne_early hc]
    split <;> omega

/-! ### The overflow at 183 -/

/-- An accepted speed passes step 2 (41_baud.md R103). -/
theorem speedInRange_of_isSome {p : Params} {cls : GenClass} {hindex clk12m : Bool} {speed : Nat} (hc : cls ≠ .fixed)
    (h : (encodeBaud p cls hindex clk12m speed).isSome = true) :
    speedInRange (clockOf (fastClock clk12m speed)) speed = true := by
  obtain ⟨r, hr⟩ := Option.isSome_iff_exists.1 h
  exact ((encodeBaud_eq_some_iff p cls hindex clk12m speed r hc).1 hr).1

/-- Settles O29: the 262295 sixteenths of 183 are too many, the at most 260869 of a higher speed are not, and rounding moves either
by 4 at most. -/
theorem onlySpeed183Overflows : Obligations.OnlySpeed183Overflows := by
  intro p cls hindex clk12m speed hwf hc h
  have hf : fastClock clk12m speed = true → 1200 ≤ speed := fun h => (fastClock_eq_true h).2
  have hrange := speedInRange_of_isSome hc h
  have hlow := speed_ge_of_inRange hf hrange
  obtain ⟨hupper, hlower, -⟩ := roundingStaysClose p cls _ speed hwf (sixteenths_bounds hf hrange).1
  constructor
  · intro hover
    by_contra hne
    have hd := sixteenths_le hf (by decide) (by decide) (by omega : 184 ≤ speed)
    omega
  · rintro rfl
    have hslow : fastClock clk12m 183 = false := Bool.eq_false_iff.2 fun h => absurd (hf h) (by decide)
    rw [hslow] at hlower ⊢
    have hd : clockOf false * 16 / 183 = 262295 := rfl
    omega

/-- Only integral part 1 is re-encoded (41_baud.md R111, R112). -/
theorem repack_of_ne_one (policy : FracPolicy) {d8 : Nat} (h : d8 / 8 ≠ 1) : repack policy d8 = (d8 / 8, d8 % 8) := if_neg h

/-- Settles O30. -/
theorem speed183PacksByOverflow : Obligations.Speed183PacksByOverflow := by
  intro p cls hindex clk12m hr hc
  have hslow : fastClock clk12m 183 = false := by rw [fastClock, decide_eq_false (by decide), Bool.and_false]
  have hd8 : divisorEighths p.roundoff cls (clockOf false) 183 = 131148 := by
    rw [hr]
    cases cls <;> rfl
  rw [encodeBaud_eq_some_iff _ _ _ _ _ _ hc, hslow, hd8, repack_of_ne_one _ (by decide)]
  exact ⟨rfl, rfl, by cases hindex <;> rfl⟩

/-! ### Integral divisor 1 -/

/-- The halves of a divisor of 14 bits, the high one as the statements write it (41_baud.md R113). -/
theorem splitDivisor_packDivisor {integ frac code : Nat} (hindex fast : Bool) (hi : integ < 16384)
    (hc : fracTab[frac]? = some code) : splitDivisor hindex (packDivisor integ frac fast)
      = (BitVec.ofNat 16 (integ + 16384 * (code % 4)), highHalf hindex fast (code / 4)) := by
  obtain ⟨-, hplain, hshifted⟩ := packedDivisorFields integ frac code fast hi hc
  cases hindex with
  | false => rw [hplain, highHalf, if_neg Bool.false_ne_true, Nat.mul_one]
  | true => rw [hshifted, highHalf, if_pos rfl, Nat.mul_comm 256]

/-- Under `any_nonzero` integral 1 keeps no fraction: each is sent as 1.5 is (41_baud.md R112). -/
theorem repack_anyNonzero {d8 : Nat} (hlow : 8 < d8) (hhigh : d8 < 16) : repack .anyNonzero d8 = (1, 0) := by
  rw [repack, if_pos (by omega), if_neg (by omega), if_pos (.inr rfl)]

/-- Settles O32. -/
theorem integralOneReencoded : Obligations.IntegralOneReencoded := by
  intro p cls hindex clk12m fast speed d8 lo hi hc h hfast hd8
  obtain ⟨-, -, hpair⟩ := (encodeBaud_eq_some_iff p cls hindex clk12m speed (lo, hi) hc).1 h
  rw [fastClock_eq hfast, clockOf, ← hd8] at hpair
  have hsent : ∀ {integ frac code : Nat}, repack p.int1Policy d8 = (integ, frac) → integ < 16384 →
      fracTab[frac]? = some code → lo = BitVec.ofNat 16 (integ + 16384 * (code % 4)) ∧ hi = highHalf hindex fast (code / 4) := by
    intro integ frac code hr hi hcode
    rw [hr, splitDivisor_packDivisor hindex fast hi hcode] at hpair
    exact Prod.mk.inj hpair
  refine ⟨?_, ?_, fun hp hlow hhigh => ?_, fun hp => ⟨?_, ?_, ?_, ?_, ?_, ?_⟩⟩
  case refine_1 | refine_2 => rintro rfl; exact hsent rfl (by decide) rfl
  case refine_3 => exact hsent (hp ▸ repack_anyNonzero hlow hhigh) (by decide) rfl
  all_goals rintro rfl; rw [hp] at hsent; exact hsent rfl (by decide) rfl

/-! ### Decoding -/

/-- Step 7 does not raise the integral part (41_baud.md R111, R112). -/
theorem repack_fst_le (policy : FracPolicy) (d8 : Nat) : (repack policy d8).1 ≤ d8 / 8 := by
  unfold repack
  split_ifs <;> omega

/-- The fraction index of step 7 is one of the table's (41_baud.md R111). -/
theorem repack_snd_lt (policy : FracPolicy) (d8 : Nat) : (repack policy d8).2 < 8 := by
  unfold repack
  split_ifs <;> omega

/-- The decoder joins what the encoder has split: P fits the 8 bits HINDEX leaves of the high half (41_baud.md R113, R117). -/
theorem join_splitDivisor (hindex : Bool) {P : BitVec 32} (hP : P.toNat < 2 ^ 24) :
    ((if hindex then (splitDivisor hindex P).2 >>> 8 else (splitDivisor hindex P).2).setWidth 32 <<< 16)
      ||| (splitDivisor hindex P).1.setWidth 32 = P := by
  have hhigh : (if hindex then (splitDivisor hindex P).2 >>> 8 else (splitDivisor hindex P).2).toNat = P.toNat / 65536 := by
    rw [splitDivisor_eq]
    cases hindex with
    | false => simp only [Bool.false_eq_true, if_false, BitVec.toNat_ofNat]; omega
    | true => simp only [if_true, BitVec.toNat_ushiftRight, BitVec.toNat_ofNat, Nat.shiftRight_eq_div_pow]; omega
  have hlow : (splitDivisor hindex P).1.toNat = P.toNat % 65536 := by rw [splitDivisor_eq, BitVec.toNat_ofNat]
  apply BitVec.eq_of_toNat_eq
  rw [BitVec.toNat_or, BitVec.toNat_shiftLeft, BitVec.toNat_setWidth, BitVec.toNat_setWidth, hhigh, hlow, Nat.shiftLeft_eq,
    Nat.mod_eq_of_lt (by omega : P.toNat / 65536 < 2 ^ 32), Nat.mod_eq_of_lt (by omega : P.toNat % 65536 < 2 ^ 32),
    Nat.mod_eq_of_lt (by omega), Nat.mul_comm, ← Nat.two_pow_add_eq_or_of_lt (by omega)]
  omega

/-- The decoder reads back the fields of a divisor of 14 bits (41_baud.md R113, R117). -/
theorem decodeBaud_packDivisor (hindex fast : Bool) {integ frac : Nat} (hi : integ < 2 ^ 14) (hf : frac < 8) :
    decodeBaud hindex (splitDivisor hindex (packDivisor integ frac fast)).1 (splitDivisor hindex (packDivisor integ frac fast)).2
      = (decodedEighths integ (fracCode frac)).map (clockOf fast * 8 / ·) := by
  have hcode := fracCode_lt frac hf
  have hP := toNat_packDivisor fast hi hcode
  have hb := fast.toNat_lt
  have hinteg : ((packDivisor integ frac fast).extractLsb' 0 14).toNat = integ := by
    rw [BitVec.extractLsb'_toNat, hP, Nat.shiftRight_eq_div_pow]
    omega
  have hfrac : ((packDivisor integ frac fast).extractLsb' 14 3).toNat = fracCode frac := by
    rw [BitVec.extractLsb'_toNat, hP, Nat.shiftRight_eq_div_pow]
    omega
  have hfast : (packDivisor integ frac fast).getLsbD 17 = fast := by
    have hdiv : (packDivisor integ frac fast).toNat / 2 ^ 17 = fast.toNat := by omega
    rw [BitVec.getLsbD, Nat.testBit_eq_decide_div_mod_eq, hdiv]
    cases fast <;> rfl
  rw [decodeBaud, join_splitDivisor hindex (by omega)]
  simp only [hinteg, hfrac, hfast]
  cases decodedEighths integ (fracCode frac) <;> rfl

/-- Under `half_only` the decoder finds the eighths step 7 has packed: "0.0" stands for 1.0 and "1.0" for 1.5, and no other divisor
is packed so (41_baud.md R112, R117). -/
theorem decodedEighths_repack {d8 : Nat} (h : 8 ≤ d8) :
    decodedEighths (repack .halfOnly d8).1 (fracCode (repack .halfOnly d8).2) = some d8 := by
  have hf : d8 % 8 < 8 := Nat.mod_lt _ (by decide)
  have hsum : d8 / 8 * 8 + fracIndex (fracCode (d8 % 8)) = d8 := by
    rw [fracIndex_fracCode _ hf]
    omega
  have hzero := fracCode_eq_zero_iff _ hf
  by_cases h1 : d8 / 8 = 1
  · by_cases hwhole : d8 % 8 = 0
    · rw [repack, if_pos h1, if_pos hwhole, show d8 = 8 by omega]
      rfl
    · by_cases hhalf : d8 % 8 = 4
      · rw [repack, if_pos h1, if_neg hwhole, if_pos (.inl hhalf), show d8 = 12 by omega]
        rfl
      · rw [repack, if_pos h1, if_neg hwhole, if_neg (by simp [hhalf]), decodedEighths, if_neg Nat.one_ne_zero,
          if_neg (fun hc => hwhole (hzero.1 hc.2)), ← h1, hsum]
  · rw [repack_of_ne_one _ h1, decodedEighths, if_neg (by omega), if_neg (fun hc => h1 hc.1), hsum]

/-- Below 8 eighths the achieved speed exceeds that of the clock itself by a seventh or more, beyond any tolerance; 0 eighths give 0
(41_baud.md R110). -/
theorem eight_le_of_withinTolerance {fast : Bool} {d8 speed : Nat} (hf : fast = true → 1200 ≤ speed)
    (hrange : speedInRange (clockOf fast) speed = true) (h : withinTolerance (clockOf fast * 8 / d8) speed = true) : 8 ≤ d8 := by
  have hlow := speed_ge_of_inRange hf hrange
  have hhigh := ((speedInRange_iff hf).1 hrange).2
  obtain ⟨htol, htol'⟩ := (withinTolerance_iff _ _).1 h
  by_contra hd8
  obtain rfl | hpos := Nat.eq_zero_or_pos d8
  · rw [Nat.div_zero] at htol
    omega
  · have hseventh : clockOf fast * 8 / 7 ≤ clockOf fast * 8 / d8 := Nat.div_le_div_left (by omega) hpos
    have hclk : 3000000 ≤ clockOf fast := by cases fast <;> decide
    omega

/-- Settles O33: the decoder finds the eighths, so the speed it gives is the one step 6 has tested. -/
theorem baudRoundTrip : Obligations.BaudRoundTrip := by
  intro p cls hindex clk12m speed lo hi hwf hp hc hne h
  obtain ⟨hrange, htol, hpair⟩ := (encodeBaud_eq_some_iff p cls hindex clk12m speed (lo, hi) hc).1 h
  have hfits := mt (onlySpeed183Overflows p cls hindex clk12m speed hwf hc (Option.isSome_of_eq_some h)).1 hne
  generalize hd8 : divisorEighths p.roundoff cls (clockOf (fastClock clk12m speed)) speed = d8 at *
  have h8 : 8 ≤ d8 := eight_le_of_withinTolerance (fun hf => (fastClock_eq_true hf).2) hrange htol
  obtain ⟨rfl, rfl⟩ := Prod.ext_iff.1 hpair
  refine ⟨_, ?_, (withinTolerance_iff _ _).1 htol⟩
  rw [decodeBaud_packDivisor _ _ ((repack_fst_le _ _).trans_lt (by omega)) (repack_snd_lt _ _), hp, decodedEighths_repack h8]
  rfl

/-- Settles O34: 10 eighths lose their fraction and are read as 12. -/
theorem anyNonzeroBreaksRoundTrip : Obligations.AnyNonzeroBreaksRoundTrip := by
  intro p cls hr hp hc
  have hd8 : divisorEighths p.roundoff cls (clockOf (fastClock false 2400000)) 2400000 = 10 := by
    rw [hr]
    cases cls <;> rfl
  refine ⟨?_, by decide⟩
  rw [encodeBaud_eq_some_iff _ _ _ _ _ _ hc, hd8, hp]
  decide

end Sys2Proof.Machine

/-! CONFIG and BREAK (42_lineconfig.md R130 to R133): what the operands become on the wire, and the state each command leaves. -/

namespace Sys2Proof.Machine

/-! ### The operands of CONFIG -/

/-- The three values a PARITY or FLOW operand may have (30_encoding.md R63). -/
theorem eq_zero_or_one_or_two {v : BitVec 2} (h : v.toNat < 3) : v = 0#2 ∨ v = 1#2 ∨ v = 2#2 := by bv_omega

/-- Operands in their sets, as numbers (30_encoding.md R63). -/
theorem lineOperandsOk_iff {dbits : BitVec 4} {parity flow : BitVec 2} : lineOperandsOk dbits parity flow = true ↔
    5 ≤ dbits.toNat ∧ dbits.toNat ≤ 8 ∧ parity.toNat < 3 ∧ flow.toNat < 3 := by
  have ne_three (v : BitVec 2) : v ≠ 3#2 ↔ v.toNat < 3 := by bv_omega
  simp [lineOperandsOk, ne_three, and_assoc]

/-- Four low bits joined with a multiple of 256 are their sum. -/
theorem setWidth_or_mul_256 (v : BitVec 4) (n : Nat) :
    v.setWidth 16 ||| BitVec.ofNat 16 (256 * n) = BitVec.ofNat 16 (v.toNat + 256 * n) := by
  have hv : v.toNat < 2 ^ 8 := v.isLt.trans (by decide)
  rw [← BitVec.ofNat_toNat, ← BitVec.ofNat_or, Nat.or_comm, ← Nat.two_pow_add_eq_or_of_lt hv, Nat.add_comm]

/-- PackLine is the sum of its three fields (42_lineconfig.md R130, 30_encoding.md R73). -/
theorem packLine_eq_ofNat (dbits : BitVec 4) {parity : BitVec 2} (hp : parity.toNat < 3) (stop2 : Bool) :
    packLine dbits parity stop2 = BitVec.ofNat 16 (dbits.toNat + 0x0100 * parity.toNat + if stop2 then 0x1000 else 0) := by
  have hfields : packLine dbits parity stop2 =
      dbits.setWidth 16 ||| BitVec.ofNat 16 (256 * (parity.toNat + if stop2 then 16 else 0)) := by
    rw [packLine, BitVec.or_assoc, BitVec.or_assoc]
    obtain rfl | rfl | rfl := eq_zero_or_one_or_two hp <;> cases stop2 <;> rfl
  rw [hfields, setWidth_or_mul_256]
  congr 1
  split <;> omega

/-- PackFlow by the number of the FLOW operand (42_lineconfig.md R131, 30_encoding.md R74). -/
theorem packFlow_eq {flow : BitVec 2} (hf : flow.toNat < 3) (xonc xoffc : Byte) : packFlow flow xonc xoffc =
    { sel := if flow.toNat = 0 then 0x00#8 else if flow.toNat = 1 then 0x01#8 else 0x04#8
      xon := if flow.toNat = 2 then xonc else 0#8
      xoff := if flow.toNat = 2 then xoffc else 0#8 } := by
  obtain rfl | rfl | rfl := eq_zero_or_one_or_two hf <;> rfl

/-! ### CONFIG -/

/-- CONFIG that no check refuses writes the packed operands (42_lineconfig.md R132). -/
theorem exec_config_of_encodes {s : State} {speed : BitVec 32} {dbits : BitVec 4} {parity flow : BitVec 2} {lo hi : Half}
    (hp : s.pvalid = true) (ho : lineOperandsOk dbits parity flow = true)
    (he : encodeBaud s.cfg s.gen.cls s.hindex s.clk12m speed.toNat = some (lo, hi)) (stop2 : Bool) (xonc xoffc : Byte) :
    exec (.config speed dbits parity stop2 flow xonc xoffc) s =
      complete { status := .ok } (s.setWire lo hi (packLine dbits parity stop2) (packFlow flow xonc xoffc)) := by
  obtain ⟨hp', -⟩ | ⟨-, ho', -⟩ | ⟨-, -, he', -⟩ | ⟨lo', hi', -, -, he', h⟩ :=
    execConfig_cases speed dbits parity stop2 flow xonc xoffc s
  · exact absurd (hp.symm.trans hp') (by decide)
  · exact absurd (ho.symm.trans ho') (by decide)
  · exact absurd (he.symm.trans he') (by simp)
  · obtain ⟨rfl, rfl⟩ := Prod.mk.inj (Option.some.inj (he.symm.trans he'))
    exact h

/-- Settles O35: no check refuses the command, and the packed operands are the sums and selectors stated. -/
theorem configWritesWireConfig : Obligations.ConfigWritesWireConfig := by
  intro s speed dbits parity stop2 flow xonc xoffc lo hi hp hd5 hd8 hpar hflow he
  rw [exec_config_of_encodes hp (lineOperandsOk_iff.2 ⟨hd5, hd8, hpar, hflow⟩) he, packLine_eq_ofNat dbits hpar,
    packFlow_eq hflow]
  rfl

/-! ### BREAK -/

/-- BREAK's change of a line-control value, bit by bit (42_lineconfig.md R133). -/
theorem getLsbD_withBreak (on : Bool) (v : Half) {n : Nat} (hn : n < 16) :
    (withBreak on v).getLsbD n = if n = 14 then on else v.getLsbD n := by
  cases on with
  | false =>
    simp only [withBreak, Bool.false_eq_true, if_false, BitVec.getLsbD_and, BitVec.getLsbD_not, getLsbD_breakBit, hn]
    by_cases h : n = 14 <;> simp [h]
  | true =>
    simp only [withBreak, if_true, BitVec.getLsbD_or, getLsbD_breakBit]
    by_cases h : n = 14 <;> simp [h]

/-- Settles O37: the value is `withBreak on s.lastLcw`. -/
theorem breakChangesBit14Only : Obligations.BreakChangesBit14Only := by
  intro s on
  obtain ⟨hf, h⟩ | ⟨ht, h⟩ := execBrk_cases on s
  · exact ⟨fun hp => absurd (hp.symm.trans hf) (by decide), fun _ => h⟩
  · exact ⟨fun _ => ⟨withBreak on s.lastLcw, h, fun _ => getLsbD_withBreak on s.lastLcw⟩,
      fun hp => absurd (hp.symm.trans ht) (by decide)⟩

end Sys2Proof.Machine

/-! FRAME (43_framer.md R160 to R166): the bytes the two disciplines leave in OBUF and in TXQ, first on `Framed`, then as the host
reads them from the state FRAME leaves. -/

namespace Sys2Proof.Machine

variable {s : State} {cap : Nat} {portno : Byte} {f : Framed}

/-! ### The chunk header -/

/-- The chunk header as a number (30_encoding.md R75). -/
theorem chunkHeader_eq_ofNat {k : Nat} (hk : k ≤ 63) (portno : Byte) :
    chunkHeader k portno = BitVec.ofNat 8 (4 * k + portno.toNat % 4) := by
  have hor : k <<< 2 ||| portno.toNat % 2 ^ 2 = k <<< 2 + portno.toNat % 2 ^ 2 :=
    (Nat.shiftLeft_add_eq_or_of_lt (Nat.mod_lt _ (by decide)) k).symm
  have hand : portno.toNat &&& 3 = portno.toNat % 2 ^ 2 := Nat.and_two_pow_sub_one_eq_mod portno.toNat 2
  apply BitVec.eq_of_toNat_eq
  rw [Nat.shiftLeft_eq] at hor
  simp only [chunkHeader, BitVec.toNat_or, BitVec.toNat_shiftLeft, BitVec.toNat_and, BitVec.toNat_ofNat, Nat.shiftLeft_eq]
  rw [Nat.mod_eq_of_lt (show k < 2 ^ 8 by omega), Nat.mod_eq_of_lt (show k * 2 ^ 2 < 2 ^ 8 by omega),
    Nat.mod_eq_of_lt (show 3 < 2 ^ 8 by decide), hand, hor]
  omega

/-- A header's CLEN field is the payload length (30_encoding.md R75). -/
theorem toNat_chunkHeader_div {k : Nat} (hk : k ≤ 63) (portno : Byte) : (chunkHeader k portno).toNat / 4 = k := by
  rw [chunkHeader_eq_ofNat hk, BitVec.toNat_ofNat]
  omega

/-! ### What OBUF holds -/

@[simp] theorem addChunk_used (cap : Nat) (portno : Byte) (f : Framed) :
    (addChunk cap portno f).used = f.used + 1 + chunkLength cap f.used f.txq.length := rfl

@[simp] theorem addChunk_txq (cap : Nat) (portno : Byte) (f : Framed) :
    (addChunk cap portno f).txq = f.txq.drop (chunkLength cap f.used f.txq.length) := rfl

/-- The bytes used of OBUF are `bs`. -/
def Framed.Holds (f : Framed) (bs : List Byte) : Prop :=
  bs.length = f.used ∧ ∀ a, a < f.used → Memory.read? f.obuf a = bs[a]?

/-- Headerless framing leaves the bytes that fit (43_framer.md R161). -/
theorem frameHeaderless_holds (cap : Nat) (obuf : List Host.Cell) (txq : List Byte) :
    (frameHeaderless cap obuf txq).Holds (txq.take cap) := by
  have hmin : txq.take (min txq.length cap) = txq.take cap := by
    rw [Nat.min_comm, ← List.take_eq_take_min]
  refine ⟨by simp [frameHeaderless, Nat.min_comm], fun a ha => ?_⟩
  simp only [frameHeaderless] at ha ⊢
  rw [hmin, Memory.read?_writeRun, if_pos (by rw [List.length_take]; omega), Nat.sub_zero]

/-- A round writes its header and its payload at `used` and no other byte (43_framer.md R162). -/
theorem read?_addChunk (hs : 2 ≤ cap - f.used) (hp : 0 < f.txq.length) (a : Nat) :
    Memory.read? (addChunk cap portno f).obuf a = if f.used ≤ a ∧ a < (addChunk cap portno f).used then
        (chunkHeader (chunkLength cap f.used f.txq.length) portno
          :: f.txq.take (chunkLength cap f.used f.txq.length))[a - f.used]?
      else Memory.read? f.obuf a := by
  rw [← addChunk_run_length cap portno f hs hp, addChunk, Memory.read?_writeRun]

/-- A round puts its header and its payload behind the bytes held. -/
theorem addChunk_holds {bs : List Byte} (h : f.Holds bs) (hs : 2 ≤ cap - f.used) (hp : 0 < f.txq.length) :
    (addChunk cap portno f).Holds (bs ++ chunkHeader (chunkLength cap f.used f.txq.length) portno
      :: f.txq.take (chunkLength cap f.used f.txq.length)) := by
  obtain ⟨hlen, hbytes⟩ := h
  refine ⟨by rw [List.length_append, hlen, addChunk_run_length cap portno f hs hp], fun a ha => ?_⟩
  rw [read?_addChunk hs hp]
  split
  · rw [List.getElem?_append_right (by omega), hlen]
  · rw [List.getElem?_append_left (by omega), hbytes a (by omega)]

/-- The loop keeps the bytes held and may put more behind them. -/
theorem frameHeadered_holds_append {bs : List Byte} (h : f.Holds bs) (fuel : Nat) :
    ∃ more, (frameHeadered cap portno fuel f).Holds (bs ++ more) :=
  frameHeadered_induct cap portno (fun g => ∃ more, g.Holds (bs ++ more))
    (fun _ ⟨more, hg⟩ hs hp => ⟨_, List.append_assoc bs more _ ▸ addChunk_holds hg hs hp⟩) fuel f ⟨[], by rwa [List.append_nil]⟩

theorem Framed.holds_nil (obuf : List Host.Cell) (txq : List Byte) : Framed.Holds { used := 0, obuf := obuf, txq := txq } [] :=
  ⟨rfl, fun _ h => absurd h (Nat.not_lt_zero _)⟩

/-- With a byte pending and space for it, the loop begins with the chunk of 43_framer.md R162 at `used = 0`. -/
theorem frameHeadered_holds_first_chunk (hcap : 2 ≤ cap) (portno : Byte) (obuf : List Host.Cell) {q : List Byte}
    (hq : 0 < q.length) : ∃ more, (frameHeadered cap portno cap { used := 0, obuf := obuf, txq := q }).Holds
      (chunkHeader (min 63 (min q.length (cap - 1))) portno :: q.take (min 63 (min q.length (cap - 1))) ++ more) := by
  have hround : frameHeadered cap portno cap { used := 0, obuf := obuf, txq := q } =
      frameHeadered cap portno (cap - 1) (addChunk cap portno { used := 0, obuf := obuf, txq := q }) := by
    obtain ⟨fuel, rfl⟩ : ∃ n, cap = n + 1 := ⟨cap - 1, by omega⟩
    exact if_pos ⟨hcap, hq⟩
  rw [hround]
  exact frameHeadered_holds_append (addChunk_holds (Framed.holds_nil obuf q) hcap hq) (cap - 1)

/-! ### Reading the chunks back -/

/-- A buffer that reads back, with one more chunk behind it, reads back with that chunk's payload behind what it gave. -/
theorem deframe_append_chunk {n m : Nat} {w p c : List Byte} {h : Byte} (hnm : n < m) (hw : deframe n w = some p)
    (hc : 0 < c.length) (hh : h.toNat / 4 = c.length) : deframe m (w ++ h :: c) = some (p ++ c) := by
  obtain ⟨m, rfl⟩ : ∃ k, m = k + 1 := ⟨m - 1, by omega⟩
  fun_induction deframe n w generalizing m p with
  | case1 =>
    cases hw
    simp [deframe, hh, hc.ne']
  | case2 | case3 => cases hw
  | case4 n h' rest hok ih =>
    obtain ⟨p, hp, rfl⟩ := Option.map_eq_some_iff.1 hw
    obtain ⟨m, rfl⟩ : ∃ k, m = k + 1 := ⟨m - 1, by omega⟩
    have hlen : h'.toNat / 4 ≤ rest.length := by omega
    rw [List.cons_append, deframe, if_neg (by rw [List.length_append]; omega), List.drop_append_of_le_length hlen,
      List.take_append_of_le_length hlen, ih hp m (by omega), Option.map_some, List.append_assoc]

/-- The bytes of `txq` taken so far are what the buffer reads back as. -/
def Framed.ReadsBack (txq : List Byte) (f : Framed) : Prop :=
  ∃ k bs, k ≤ txq.length ∧ f.txq = txq.drop k ∧ f.Holds bs ∧ deframe f.used bs = some (txq.take k)

/-- A round keeps what was taken readable (43_framer.md R162). -/
theorem addChunk_readsBack {txq : List Byte} (h : f.ReadsBack txq) (hs : 2 ≤ cap - f.used) (hp : 0 < f.txq.length) :
    (addChunk cap portno f).ReadsBack txq := by
  obtain ⟨k, bs, hk, htxq, hholds, hback⟩ := h
  obtain ⟨hpos, h63, hpend, -⟩ := chunkLength_bounds cap f.used f.txq.length hs hp
  have hlen : (f.txq.take (chunkLength cap f.used f.txq.length)).length = chunkLength cap f.used f.txq.length := by
    rw [List.length_take, Nat.min_eq_left hpend]
  refine ⟨k + chunkLength cap f.used f.txq.length, _, ?_, ?_, addChunk_holds hholds hs hp, ?_⟩
  · have := congrArg List.length htxq
    rw [List.length_drop] at this
    omega
  · rw [addChunk_txq, htxq, List.drop_drop]
  · rw [List.take_add, ← htxq]
    exact deframe_append_chunk (by rw [addChunk_used]; omega) hback (by omega) (by rw [toNat_chunkHeader_div h63, hlen])

/-- Headered framing loses, duplicates and reorders nothing (43_framer.md R162, R165). -/
theorem frameHeadered_readsBack (cap : Nat) (portno : Byte) (fuel : Nat) (obuf : List Host.Cell) (txq : List Byte) :
    (frameHeadered cap portno fuel { used := 0, obuf := obuf, txq := txq }).ReadsBack txq :=
  frameHeadered_induct cap portno (fun f => f.ReadsBack txq) (fun _ h hs hp => addChunk_readsBack h hs hp) fuel _
    ⟨0, [], Nat.zero_le _, rfl, Framed.holds_nil obuf txq, rfl⟩

/-! ### Every pending byte fits -/

/-- Byte `a` of the chunks of `q` when all of it fits: a header at every 64th offset, 63 payload bytes behind each but the last
(43_framer.md R164). -/
def chunkedByte (portno : Byte) (q : List Byte) (a : Nat) : Option Byte :=
  if a % 64 = 0 then some (chunkHeader (min 63 (q.length - 63 * (a / 64))) portno) else q[63 * (a / 64) + a % 64 - 1]?

/-- The first `k` bytes of `q` are taken, all of them or full chunks only, and stand in OBUF chunk by chunk. -/
def Framed.Chunked (portno : Byte) (q : List Byte) (f : Framed) : Prop :=
  ∃ k, k ≤ q.length ∧ (k = q.length ∨ k % 63 = 0) ∧ f.txq = q.drop k ∧ f.used = k + (k + 62) / 63
    ∧ ∀ a, a < f.used → Memory.read? f.obuf a = chunkedByte portno q a

/-- Where all of `q` fits, a round adds a full chunk or the last one (43_framer.md R162, R164). -/
theorem addChunk_chunked {q : List Byte} (hfit : q.length + (q.length + 62) / 63 ≤ cap) (h : f.Chunked portno q)
    (hs : 2 ≤ cap - f.used) (hp : 0 < f.txq.length) : (addChunk cap portno f).Chunked portno q := by
  obtain ⟨k, hk, hfull, htxq, hused, hbytes⟩ := h
  have hlen : f.txq.length = q.length - k := by rw [htxq, List.length_drop]
  obtain ⟨m, rfl⟩ : ∃ m, k = 63 * m := ⟨k / 63, by omega⟩
  have hc : chunkLength cap f.used f.txq.length = min 63 (q.length - 63 * m) := by
    rw [chunkLength, hlen]
    omega
  refine ⟨63 * m + min 63 (q.length - 63 * m), by omega, by omega, ?_, ?_, fun a ha => ?_⟩
  · rw [addChunk_txq, hc, htxq, List.drop_drop]
  · rw [addChunk_used, hc]
    omega
  · rw [addChunk_used, hc] at ha
    rw [read?_addChunk hs hp, addChunk_used, hc]
    split
    · obtain ⟨r, rfl⟩ : ∃ r, a = 64 * m + r := ⟨a - 64 * m, by omega⟩
      rw [chunkedByte, htxq, show 64 * m + r - f.used = r by omega, show (64 * m + r) % 64 = r by omega,
        show (64 * m + r) / 64 = m by omega]
      cases r with
      | zero => rfl
      | succ r =>
        rw [if_neg (by omega), List.getElem?_cons_succ, List.getElem?_take_of_lt (by omega), List.getElem?_drop]
        congr 1
    · exact hbytes a (by omega)

/-- Headered framing of bytes that all fit takes all of them (43_framer.md R164). -/
theorem frameHeadered_chunked (portno : Byte) {q : List Byte} (obuf : List Host.Cell)
    (hfit : q.length + (q.length + 62) / 63 ≤ cap) :
    (frameHeadered cap portno cap { used := 0, obuf := obuf, txq := q }).txq = []
      ∧ (frameHeadered cap portno cap { used := 0, obuf := obuf, txq := q }).used = q.length + (q.length + 62) / 63
      ∧ ∀ a, a < q.length + (q.length + 62) / 63 →
        Memory.read? (frameHeadered cap portno cap { used := 0, obuf := obuf, txq := q }).obuf a = chunkedByte portno q a := by
  obtain ⟨k, hk, hfull, htxq, hused, hbytes⟩ :=
    frameHeadered_induct cap portno (fun f => f.Chunked portno q) (fun _ h hs hp => addChunk_chunked hfit h hs hp) cap
      { used := 0, obuf := obuf, txq := q }
      ⟨0, Nat.zero_le _, .inr rfl, rfl, rfl, fun _ h => absurd h (Nat.not_lt_zero _)⟩
  have hall : k = q.length := by
    obtain hnil | hspace := frameHeadered_done cap portno cap { used := 0, obuf := obuf, txq := q } (Nat.sub_le cap 0)
    · rw [htxq, List.drop_eq_nil_iff] at hnil
      omega
    · omega
  subst hall
  exact ⟨htxq.trans List.drop_length, hused, fun a ha => hbytes a (hused ▸ ha)⟩

/-! ### The state FRAME leaves -/

/-- What FRAME leaves when there is a profile (43_framer.md R166). -/
def State.afterFrame (s : State) : State :=
  (s.setFramed (framed s).obuf (framed s).txq (framed s).used).redraw.answer
    (.completion ({ status := .ok, submit := (framed s).used != 0 } : Completion).record)

theorem exec_frame_eq_afterFrame (hp : s.pvalid = true) : exec .frame s = .next s.afterFrame := exec_frame_of_pvalid hp

theorem State.afterFrame_olen (hw : s.cfg.wf = true) : s.afterFrame.olen.toNat = (framed s).used := toNat_ofNat_framed_used hw

@[simp] theorem State.afterFrame_txq (s : State) : s.afterFrame.txq = (framed s).txq := rfl

/-- SUBMIT says whether a byte of OBUF is used (43_framer.md R163). -/
theorem State.afterFrame_reply (s : State) :
    s.afterFrame.reply = some (.completion (if (framed s).used = 0 then 0x0000#16 else 0x0200#16)) := by
  simp [State.afterFrame, record_submit]

/-- FRAME writes no register but OLEN (10_state.md R18). -/
theorem registerValue_setFramed (s : State) (obuf : List Host.Cell) (txq : List Byte) (used : Nat) {n : Nat} (hn : n ≠ 16) :
    registerValue (s.setFramed obuf txq used) n = registerValue s n := by
  obtain hlt | hgt := Nat.lt_or_gt_of_ne hn
  · interval_cases n <;> rfl
  · rw [registerValue_eq_none_of_gt _ hgt, registerValue_eq_none_of_gt _ hgt]

/-- Neither the draw counter nor the reply is a register (10_state.md R13). -/
theorem registerValue_redraw_answer (s : State) (r : Reply) (n : Nat) :
    registerValue (s.redraw.answer r) n = registerValue s n := rfl

theorem registerValue_afterFrame (s : State) {n : Nat} (hn : n ≠ 16) : registerValue s.afterFrame n = registerValue s n := by
  rw [State.afterFrame, registerValue_redraw_answer, registerValue_setFramed s _ _ _ hn]

/-- A byte used of OBUF is the one the host reads (20_memory.md R51). -/
theorem readObuf_afterFrame (hw : s.cfg.wf = true) {a : Nat} {b : Byte} (ha : a < (framed s).used)
    (hb : Memory.read? (framed s).obuf a = some b) : readObuf s.afterFrame a = b :=
  readObuf_of_lt_olen (by rwa [State.afterFrame_olen hw]) hb

/-- The host reads the bytes held, one at a time. -/
theorem some_readObuf_afterFrame (hw : s.cfg.wf = true) {bs : List Byte} (h : (framed s).Holds bs) {a : Nat} (ha : a < bs.length) :
    some (readObuf s.afterFrame a) = bs[a]? := by
  obtain ⟨hlen, hbytes⟩ := h
  have hb := List.getElem?_eq_getElem ha
  rw [hb, readObuf_afterFrame hw (hlen ▸ ha) ((hbytes a (hlen ▸ ha)).trans hb)]

/-- The host reads the bytes held. -/
theorem obufBytes_afterFrame (hw : s.cfg.wf = true) {bs : List Byte} (h : (framed s).Holds bs) :
    obufBytes s.afterFrame s.afterFrame.olen.toNat = bs := by
  rw [State.afterFrame_olen hw, ← h.1]
  refine List.ext_getElem (by simp [obufBytes]) fun a _ ha => Option.some.inj ?_
  rw [← List.getElem?_eq_getElem ha, ← some_readObuf_afterFrame hw h ha]
  simp [obufBytes]

theorem framed_of_headerless (h : s.hdrlen = 0#1) : framed s = frameHeaderless s.cfg.obufCap s.obuf s.txq := if_pos h

theorem framed_of_headered (h : s.hdrlen = 1#1) :
    framed s = frameHeadered s.cfg.obufCap s.portno s.cfg.obufCap { used := 0, obuf := s.obuf, txq := s.txq } :=
  if_neg (by rw [h]; decide)

/-- A capacity holds a header and a byte (00_scope.md R6). -/
theorem two_le_of_capOk {n : Nat} (h : capOk n = true) : 2 ≤ n := by
  simp only [capOk, Bool.and_eq_true, decide_eq_true_eq] at h
  exact h.1

/-! ### The obligations -/

/-- Settles O39: OBUF holds the bytes taken, and their number is 0 only with nothing pending, since a byte always fits. -/
theorem headerlessFrame : Obligations.HeaderlessFrame := by
  intro s hp hh hw
  have hf := framed_of_headerless hh
  have hcap := two_le_of_capOk (Params.wf_iff.1 hw).1
  have hused : (framed s).used = min s.txq.length s.cfg.obufCap := by rw [hf, frameHeaderless]
  refine ⟨_, exec_frame_eq_afterFrame hp, (State.afterFrame_olen hw).trans hused,
    obufBytes_afterFrame hw (hf ▸ frameHeaderless_holds _ _ _), ?_, ?_⟩
  · rw [State.afterFrame_txq, hf, frameHeaderless, Nat.min_comm, ← List.drop_eq_drop_min]
  · have hz : (framed s).used = 0 ↔ s.txq = [] := by
      rw [hused, ← List.length_eq_zero_iff]
      omega
    simp only [State.afterFrame_reply, hz]

/-- Settles O40: OBUF is `chunkedByte`, at a header's offset and at a payload byte's. -/
theorem headeredFrameChunks : Obligations.HeaderedFrameChunks := by
  intro s hp hh hw hpos hfit
  have hf := framed_of_headered hh
  obtain ⟨htxq, hused, hbytes⟩ := frameHeadered_chunked s.portno s.obuf hfit
  rw [← hf] at htxq hused hbytes
  have hread : ∀ {a : Nat} {b : Byte}, a < s.txq.length + (s.txq.length + 62) / 63 → chunkedByte s.portno s.txq a = some b →
      readObuf s.afterFrame a = b :=
    fun ha hb => readObuf_afterFrame hw (hused ▸ ha) ((hbytes _ ha).trans hb)
  refine ⟨_, exec_frame_eq_afterFrame hp, (State.afterFrame_olen hw).trans hused, htxq, ?_, fun j hj => hread (by omega) ?_,
    fun i hi => ?_⟩
  · rw [State.afterFrame_reply, if_neg (by omega)]
  · rw [chunkedByte, if_pos (by omega), Nat.mul_div_cancel_left j (by decide), chunkHeader_eq_ofNat (Nat.min_le_left _ _)]
  · rw [List.getElem?_eq_getElem hi, hread (by omega)]
    rw [chunkedByte, if_neg (by omega), ← List.getElem?_eq_getElem hi]
    congr 1
    omega

/-- Settles O41: the loop's stream reads back as the bytes taken, and the loop's fuel is enough for the stop condition. -/
theorem headeredFrameLosesNothing : Obligations.HeaderedFrameLosesNothing := by
  intro s hp hh hw
  have hf := framed_of_headered hh
  obtain ⟨k, bs, hk, htxq, hholds, hback⟩ := frameHeadered_readsBack s.cfg.obufCap s.portno s.cfg.obufCap s.obuf s.txq
  have hdone := frameHeadered_done s.cfg.obufCap s.portno s.cfg.obufCap { used := 0, obuf := s.obuf, txq := s.txq } (Nat.sub_le _ _)
  rw [← hf] at htxq hholds hback hdone
  refine ⟨_, k, exec_frame_eq_afterFrame hp, hk, htxq, ?_, ?_⟩
  · rw [obufBytes_afterFrame hw hholds, State.afterFrame_olen hw, hback]
  · rwa [State.afterFrame_olen hw]

/-- Settles O42: the first round is run, and the loop keeps its chunk. -/
theorem firstChunkHeader : Obligations.FirstChunkHeader := by
  intro s hp hh hw hpos
  have hcap := two_le_of_capOk (Params.wf_iff.1 hw).1
  obtain ⟨more, hholds⟩ := frameHeadered_holds_first_chunk hcap s.portno s.obuf hpos
  rw [← framed_of_headered hh] at hholds
  refine ⟨_, exec_frame_eq_afterFrame hp, Option.some.inj ?_, ?_⟩
  · rw [some_readObuf_afterFrame hw hholds (by simp), ← chunkHeader_eq_ofNat (Nat.min_le_left _ _)]
    rfl
  · rw [some_readObuf_afterFrame hw hholds (by simp only [List.length_append, List.length_cons, List.length_take]; omega),
      List.cons_append, List.getElem?_cons_succ, List.getElem?_append_left (by rw [List.length_take]; omega),
      List.getElem?_take_of_lt (by omega)]

/-- Settles O44: an error changes the reply alone, and a FRAME that completes leaves `State.afterFrame`. -/
theorem frameFrame : Obligations.FrameFrame := by
  intro s t h
  obtain ⟨-, he⟩ | ⟨hp, -⟩ := execFrame_cases s
  · obtain rfl := raise_next (he.symm.trans h)
    exact ⟨fun _ _ => rfl, rfl, fun _ => rfl, rfl, rfl, rfl, 0, rfl⟩
  · obtain rfl := Host.Outcome.next.inj ((exec_frame_eq_afterFrame hp).symm.trans h)
    exact ⟨fun _ => registerValue_afterFrame s, by simp [State.afterFrame, (framed_frames s).taken]⟩

end Sys2Proof.Machine

/-! PARSE and the StatusTracker (44_parser.md R180 to R188): the offsets of headers and payload packet by packet, what the packet loop
collects from them, and the state PARSE leaves. -/

namespace Sys2Proof.Machine

variable {s : State} {m n len : Nat}

/-! ### Cutting a buffer into packets -/

/-- A buffer is shorter than a header, or one packet that is not full, or a full packet and a buffer behind it (44_parser.md R182). -/
theorem packets_induct (hm : 2 ≤ m) {motive : Nat → Prop} (short : ∀ n, n < 2 → motive n)
    (last : ∀ k, 2 + k < m → motive (2 + k)) (full : ∀ n, motive n → motive (m + n)) (n : Nat) : motive n := by
  induction n using Nat.strong_induction_on with
  | _ n ih =>
    by_cases hshort : n < 2
    · exact short n hshort
    · by_cases hlast : n < m
      · obtain ⟨k, rfl⟩ := Nat.exists_eq_add_of_le (Nat.not_lt.1 hshort)
        exact last k hlast
      · obtain ⟨r, rfl⟩ := Nat.exists_eq_add_of_le (Nat.not_lt.1 hlast)
        exact full r (ih r (by omega))

/-- Only the offset 0 of a first packet can begin a header. -/
theorem filter_range_mod_eq_zero (hn : 0 < n) (hnm : n ≤ m) {p : Nat → Bool} (hp : p 0 = true) :
    (List.range n).filter (fun i => i % m == 0 && p i) = [0] := by
  obtain ⟨k, rfl⟩ := Nat.exists_eq_add_of_le' hn
  rw [List.range_succ_eq_map, List.filter_cons_of_pos (by simp [hp]), List.filter_eq_nil_iff.2]
  intro i hi
  obtain ⟨j, hj, rfl⟩ := List.mem_map.1 hi
  rw [List.mem_range] at hj
  simp [Nat.mod_eq_of_lt (show j + 1 < m by omega)]

theorem headerOffsets_short (hn : n < 2) : headerOffsets m n = [] := by
  refine List.filter_eq_nil_iff.2 fun i hi => ?_
  rw [List.mem_range] at hi
  simp [show ¬ i + 2 ≤ n by omega]

theorem headerOffsets_last (hn : 2 ≤ n) (hnm : n < m) : headerOffsets m n = [0] :=
  filter_range_mod_eq_zero (by omega) hnm.le (decide_eq_true (by omega))

theorem headerOffsets_full (hm : 2 ≤ m) (n : Nat) : headerOffsets m (m + n) = 0 :: (headerOffsets m n).map (m + ·) := by
  rw [headerOffsets, List.range_add, List.filter_append, List.filter_map,
    filter_range_mod_eq_zero (by omega) le_rfl (decide_eq_true (by omega)), List.singleton_append]
  simp [headerOffsets, Function.comp_def, Nat.add_assoc]

theorem payloadOffsets_short (hn : n < 2) : payloadOffsets m n = [] := by
  refine List.filter_eq_nil_iff.2 fun i hi hmod => ?_
  have hi := List.mem_range.1 hi
  have hle := Nat.mod_le i m
  have hmod := of_decide_eq_true hmod
  omega

/-- In one packet every byte behind the header is payload (44_parser.md R182). -/
theorem payloadOffsets_packet {k : Nat} (hk : 2 + k ≤ m) : payloadOffsets m (2 + k) = (List.range k).map (2 + ·) := by
  rw [payloadOffsets, List.range_add, List.filter_append, List.filter_eq_nil_iff.2, List.nil_append,
    List.filter_eq_self.2]
  · simp only [List.mem_map, List.mem_range, forall_exists_index, and_imp, decide_eq_true_eq]
    rintro _ i hi rfl
    rw [Nat.mod_eq_of_lt (by omega)]
    omega
  · intro i hi
    rw [List.mem_range] at hi
    simp [Nat.mod_eq_of_lt (show i < m by omega), hi]

theorem payloadOffsets_full (m n : Nat) : payloadOffsets m (m + n) = payloadOffsets m m ++ (payloadOffsets m n).map (m + ·) := by
  rw [payloadOffsets, List.range_add, List.filter_append, List.filter_map]
  simp [payloadOffsets, Function.comp_def]

/-- The header found last is the one at `lastHeaderOffset` (44_parser.md R183). -/
theorem getLast?_headerOffsets (hm : 2 ≤ m) (n : Nat) : 2 ≤ n → (headerOffsets m n).getLast? = some (lastHeaderOffset m n) := by
  induction n using packets_induct hm with
  | short n hn => intro h; omega
  | last k hk =>
    intro h
    rw [headerOffsets_last h hk, lastHeaderOffset, Nat.div_eq_of_lt (by omega)]
    rfl
  | full n ih =>
    intro _
    rw [headerOffsets_full hm, List.getLast?_cons, List.getLast?_map, lastHeaderOffset]
    by_cases hn : n < 2
    · rw [headerOffsets_short hn, Nat.div_eq_of_lt (by omega)]
      rfl
    · rw [ih (by omega), Nat.add_sub_assoc (by omega), Nat.add_div_left _ (by omega), Nat.mul_succ, Nat.add_comm (m * _)]
      rfl

/-- Every byte is payload, one of the two of a header, or a trailing byte (44_parser.md R186, R187). -/
theorem length_payloadOffsets (hm : 2 ≤ m) (n : Nat) :
    (payloadOffsets m n).length + 2 * headerCount m n + (if n % m = 1 then 1 else 0) = n := by
  induction n using packets_induct hm with
  | short n hn =>
    rw [payloadOffsets_short hn, headerCount, Nat.mod_eq_of_lt (by omega), Nat.div_eq_of_lt (by omega)]
    obtain rfl | rfl : n = 0 ∨ n = 1 := by omega
    · rw [if_neg zero_ne_one, if_neg zero_ne_one, Nat.div_eq_of_lt (by omega)]
      rfl
    · rfl
  | last k hk =>
    have hone : (2 + k + m - 1) / m = 1 := by
      rw [show 2 + k + m - 1 = m + (1 + k) by omega, Nat.add_div_left _ (by omega), Nat.div_eq_of_lt (by omega)]
    rw [payloadOffsets_packet hk.le, headerCount, Nat.mod_eq_of_lt hk, if_neg (by omega), if_neg (by omega), hone, List.length_map,
      List.length_range]
    omega
  | full n ih =>
    have hcount : headerCount m (m + n) = headerCount m n + 1 := by
      rw [headerCount, headerCount, Nat.add_mod_left, Nat.add_div_left _ (by omega),
        show m + n + m - 1 = m + (n + m - 1) by omega, Nat.add_div_left _ (by omega)]
      split <;> rfl
    have hfull : (payloadOffsets m m).length = m - 2 := by
      obtain ⟨k, rfl⟩ := Nat.exists_eq_add_of_le hm
      simp [payloadOffsets_packet le_rfl]
    rw [payloadOffsets_full, hcount, Nat.add_mod_left, List.length_append, List.length_map, hfull]
    omega

/-! ### What the packet loop collects -/

/-- One header (44_parser.md R182). -/
def ParseAcc.readHeader (s : State) (acc : ParseAcc) (off : Nat) : ParseAcc :=
  { acc with
    lsrAcc := acc.lsrAcc ||| (readIbuf s (off + 1) &&& s.cfg.maskOf s.gen)
    riAcc := acc.riAcc || anyBit (readIbuf s off) riMask
    lastH0 := readIbuf s off }

/-- Payload bytes of one packet or of several. -/
def ParseAcc.forward (acc : ParseAcc) (bytes : List Byte) : ParseAcc := { acc with payload := acc.payload ++ bytes }

theorem parsePacket_eq (s : State) (off k : Nat) (acc : ParseAcc) :
    parsePacket s off k acc = (acc.readHeader s off).forward (payloadAt s (off + 2) k) := rfl

theorem ParseAcc.forward_nil (acc : ParseAcc) : acc.forward [] = acc := by
  rw [forward, List.append_nil]

theorem ParseAcc.forward_forward (acc : ParseAcc) (bs cs : List Byte) : (acc.forward bs).forward cs = acc.forward (bs ++ cs) := by
  rw [forward, forward, forward, List.append_assoc]

theorem foldl_readHeader_forward (s : State) (offs : List Nat) (acc : ParseAcc) (bs : List Byte) :
    offs.foldl (ParseAcc.readHeader s) (acc.forward bs) = (offs.foldl (ParseAcc.readHeader s) acc).forward bs := by
  induction offs generalizing acc with
  | nil => rfl
  | cons o offs ih => exact ih (acc.readHeader s o)

theorem foldl_readHeader_payload (s : State) (offs : List Nat) (acc : ParseAcc) :
    (offs.foldl (ParseAcc.readHeader s) acc).payload = acc.payload := by
  induction offs generalizing acc with
  | nil => rfl
  | cons o offs ih => exact ih (acc.readHeader s o)

/-- A line-status bit is accumulated over all headers (44_parser.md R182). -/
theorem foldl_readHeader_lsrAcc (s : State) (offs : List Nat) (acc : ParseAcc) (b : Nat) :
    (offs.foldl (ParseAcc.readHeader s) acc).lsrAcc.getLsbD b =
      (acc.lsrAcc.getLsbD b || offs.any fun o => (readIbuf s (o + 1) &&& s.cfg.maskOf s.gen).getLsbD b) := by
  induction offs generalizing acc with
  | nil => simp
  | cons o offs ih => simp [ih, ParseAcc.readHeader, Bool.or_assoc]

/-- RI is accumulated over all headers (44_parser.md R182). -/
theorem foldl_readHeader_riAcc (s : State) (offs : List Nat) (acc : ParseAcc) :
    (offs.foldl (ParseAcc.readHeader s) acc).riAcc = (acc.riAcc || offs.any fun o => anyBit (readIbuf s o) riMask) := by
  induction offs generalizing acc with
  | nil => simp
  | cons o offs ih => simp [ih, ParseAcc.readHeader, Bool.or_assoc]

/-- The modem byte kept is the last header's (44_parser.md R183). -/
theorem foldl_readHeader_lastH0 (s : State) {offs : List Nat} {o : Nat} (h : offs.getLast? = some o) (acc : ParseAcc) :
    (offs.foldl (ParseAcc.readHeader s) acc).lastH0 = readIbuf s o := by
  obtain ⟨init, rfl⟩ := List.getLast?_eq_some_iff.1 h
  rw [List.foldl_append]
  rfl

theorem payloadAt_eq_map_payloadOffsets (s : State) (off : Nat) {k : Nat} (hk : 2 + k ≤ m) :
    payloadAt s (off + 2) k = ((payloadOffsets m (2 + k)).map (off + ·)).map (readIbuf s) := by
  simp [payloadOffsets_packet hk, payloadAt, Nat.add_assoc]

/-- The loop reads the headers in order and forwards the payload bytes in order (44_parser.md R182); a round for each byte left is
fuel enough (R187). -/
theorem parseLoop_eq (hm : 2 ≤ s.cfg.inMaxpkt) (rem : Nat) : ∀ (fuel off : Nat) (acc : ParseAcc), rem ≤ fuel →
    parseLoop s fuel off rem acc =
      (((headerOffsets s.cfg.inMaxpkt rem).map (off + ·)).foldl (ParseAcc.readHeader s) acc).forward
        (((payloadOffsets s.cfg.inMaxpkt rem).map (off + ·)).map (readIbuf s)) := by
  induction rem using packets_induct hm with
  | short n hn =>
    intro fuel off acc _
    rw [parseLoop_short _ _ _ _ _ hn, headerOffsets_short hn, payloadOffsets_short hn]
    exact acc.forward_nil.symm
  | last k hk =>
    intro fuel off acc hfuel
    obtain ⟨fuel, rfl⟩ : ∃ f, fuel = f + 1 := ⟨fuel - 1, by omega⟩
    rw [parseLoop_last _ _ _ _ _ (by omega) hk, headerOffsets_last (by omega) hk, parsePacket_eq, Nat.add_sub_cancel_left,
      payloadAt_eq_map_payloadOffsets s off hk.le]
    rfl
  | full n ih =>
    intro fuel off acc hfuel
    obtain ⟨fuel, rfl⟩ : ∃ f, fuel = f + 1 := ⟨fuel - 1, by omega⟩
    have hpacket := payloadAt_eq_map_payloadOffsets (k := s.cfg.inMaxpkt - 2) s off (Nat.add_sub_of_le hm).le
    rw [Nat.add_sub_of_le hm] at hpacket
    rw [parseLoop_full _ _ _ _ _ hm (by omega), Nat.add_sub_cancel_left, ih _ _ _ (by omega), parsePacket_eq,
      foldl_readHeader_forward, ParseAcc.forward_forward, hpacket, headerOffsets_full hm, payloadOffsets_full]
    simp [Function.comp_def, Nat.add_assoc]

theorem parsed_eq (hm : 2 ≤ s.cfg.inMaxpkt) (len : Nat) :
    parsed s len = ((headerOffsets s.cfg.inMaxpkt len).foldl (ParseAcc.readHeader s) ParseAcc.start).forward
      ((payloadOffsets s.cfg.inMaxpkt len).map (readIbuf s)) := by
  simp [parsed, parseLoop_eq hm len len 0 _ le_rfl]

/-- PARSE forwards the payload bytes in buffer order (44_parser.md R182). -/
theorem parsed_payload (hm : 2 ≤ s.cfg.inMaxpkt) (len : Nat) :
    (parsed s len).payload = (payloadOffsets s.cfg.inMaxpkt len).map (readIbuf s) := by
  rw [parsed_eq hm, ParseAcc.forward, foldl_readHeader_payload]
  rfl

/-- A line-status bit is set when it is set in the masked line byte of some header (44_parser.md R182). -/
theorem getLsbD_parsed_lsrAcc (hm : 2 ≤ s.cfg.inMaxpkt) (len b : Nat) : (parsed s len).lsrAcc.getLsbD b =
    (headerOffsets s.cfg.inMaxpkt len).any fun o => (readIbuf s (o + 1) &&& s.cfg.maskOf s.gen).getLsbD b := by
  rw [parsed_eq hm, ParseAcc.forward, foldl_readHeader_lsrAcc]
  simp [ParseAcc.start]

/-! ### The modem bits -/

/-- A mask of one bit tests that bit. -/
theorem anyBit_twoPow (h : Byte) (i : Nat) (hi : i < 8) : anyBit h (BitVec.twoPow 8 i) = h.getLsbD i := by
  have hne : BitVec.twoPow 8 i ≠ 0#8 := fun h0 => by
    simpa [hi] using congrArg (fun v => v.getLsbD i) h0
  rw [anyBit, BitVec.and_twoPow]
  cases h.getLsbD i <;> simp [hne]

theorem anyBit_riMask (h : Byte) : anyBit h riMask = h.getLsbD 6 := anyBit_twoPow h 6 (by decide)

/-- The positions of CTS, DSR, RI and DCD (30_encoding.md R76, R77). -/
theorem getLsbD_modemBits (h : Byte) (ri : Bool) :
    (modemBits h ri).getLsbD 0 = h.getLsbD 4 ∧ (modemBits h ri).getLsbD 1 = h.getLsbD 5
      ∧ (modemBits h ri).getLsbD 2 = (h.getLsbD 6 || ri) ∧ (modemBits h ri).getLsbD 3 = h.getLsbD 7 := by
  have hcts : anyBit h ctsMask = h.getLsbD 4 := anyBit_twoPow h 4 (by decide)
  have hdsr : anyBit h dsrMask = h.getLsbD 5 := anyBit_twoPow h 5 (by decide)
  have hdcd : anyBit h dcdMask = h.getLsbD 7 := anyBit_twoPow h 7 (by decide)
  rw [modemBits, hcts, hdsr, anyBit_riMask, hdcd]
  cases h.getLsbD 4 <;> cases h.getLsbD 5 <;> cases h.getLsbD 6 || ri <;> cases h.getLsbD 7 <;> decide

/-- CTS, DSR and DCD are the last header's, RI is that of any header (44_parser.md R183). -/
theorem getLsbD_parsedModem (hm : 2 ≤ s.cfg.inMaxpkt) (hl : 2 ≤ len) :
    (parsedModem s len).getLsbD 0 = (readIbuf s (lastHeaderOffset s.cfg.inMaxpkt len)).getLsbD 4
      ∧ (parsedModem s len).getLsbD 1 = (readIbuf s (lastHeaderOffset s.cfg.inMaxpkt len)).getLsbD 5
      ∧ (parsedModem s len).getLsbD 2 = (headerOffsets s.cfg.inMaxpkt len).any (fun o => (readIbuf s o).getLsbD 6)
      ∧ (parsedModem s len).getLsbD 3 = (readIbuf s (lastHeaderOffset s.cfg.inMaxpkt len)).getLsbD 7 := by
  have hlast := getLast?_headerOffsets hm len hl
  have hh0 : (parsed s len).lastH0 = readIbuf s (lastHeaderOffset s.cfg.inMaxpkt len) := by
    rw [parsed_eq hm]
    exact foldl_readHeader_lastH0 s hlast _
  have hri : (parsed s len).riAcc = (headerOffsets s.cfg.inMaxpkt len).any fun o => (readIbuf s o).getLsbD 6 := by
    rw [parsed_eq hm, ParseAcc.forward, foldl_readHeader_riAcc]
    simp [ParseAcc.start, anyBit_riMask]
  obtain ⟨hcts, hdsr, hor, hdcd⟩ := getLsbD_modemBits (parsed s len).lastH0 (parsed s len).riAcc
  rw [← parsedModem, hh0] at hcts hdsr hor hdcd
  refine ⟨hcts, hdsr, ?_, hdcd⟩
  rw [hor, hri]
  exact Bool.or_eq_right_iff_imp.2 fun h => List.any_eq_true.2 ⟨_, List.mem_of_getLast? hlast, h⟩

/-! ### The state PARSE leaves -/

/-- After StatusUpdate the tracker holds the new status, whether it changed or not (44_parser.md R184). -/
theorem trackStatus_eq_setTracker (md : BitVec 4) (l : Byte) (s : State) : trackStatus md l s = s.setTracker md l := by
  obtain ⟨h, -⟩ | ⟨h, -, hv, rfl, rfl⟩ := trackStatus_cases md l s
  · exact h
  · rw [h, State.setTracker, ← hv]

/-- StatusUpdate is silent exactly when a status had been recorded and neither part differs (44_parser.md R184). -/
theorem statusChanged_eq_false_iff (v : Bool) (md md' : BitVec 4) (l l' : Byte) :
    statusChanged v md md' l l' = false ↔ v = true ∧ md = md' ∧ l = l' := by
  simp [statusChanged, and_assoc, eq_comm (a := md'), eq_comm (a := l')]

/-- What PARSE of at least a header leaves when there is a profile (44_parser.md R185). -/
def State.afterParse (s : State) (len : Nat) : State :=
  (((s.pushRx (parsed s len).payload).setTracker (parsedModem s len) (parsed s len).lsrAcc).redraw).answer
    (.completion (if s.svalid = true ∧ s.stModem = parsedModem s len ∧ s.stLine = (parsed s len).lsrAcc then 0x0000#16
      else 0x0800#16))

@[simp] theorem State.afterParse_pvalid (s : State) (len : Nat) : (s.afterParse len).pvalid = s.pvalid := by simp [afterParse]
@[simp] theorem State.afterParse_gen (s : State) (len : Nat) : (s.afterParse len).gen = s.gen := by simp [afterParse]
@[simp] theorem State.afterParse_cfg (s : State) (len : Nat) : (s.afterParse len).cfg = s.cfg := by simp [afterParse]
@[simp] theorem State.afterParse_ibuf (s : State) (len : Nat) : (s.afterParse len).ibuf = s.ibuf := by simp [afterParse]
@[simp] theorem State.afterParse_rxq (s : State) (len : Nat) : (s.afterParse len).rxq = s.rxq ++ (parsed s len).payload := rfl
@[simp] theorem State.afterParse_svalid (s : State) (len : Nat) : (s.afterParse len).svalid = true := rfl
@[simp] theorem State.afterParse_stModem (s : State) (len : Nat) : (s.afterParse len).stModem = parsedModem s len := rfl
@[simp] theorem State.afterParse_stLine (s : State) (len : Nat) : (s.afterParse len).stLine = (parsed s len).lsrAcc := rfl

/-- NOTIFY is 0 exactly when a status had been recorded and both parts of it are the same (44_parser.md R184). -/
theorem State.afterParse_reply (s : State) (len : Nat) : (s.afterParse len).reply =
    some (.completion (if s.svalid = true ∧ s.stModem = parsedModem s len ∧ s.stLine = (parsed s len).lsrAcc then 0x0000#16
      else 0x0800#16)) := rfl

/-- With a profile and a length in range PARSE parses (44_parser.md R185). -/
theorem exec_parse_eq_afterParse {len : Half} (hp : s.pvalid = true) (h2 : 2 ≤ len.toNat) (hc : len.toNat ≤ s.cfg.ibufCap) :
    exec (.parse len) s = .next (s.afterParse len.toNat) := by
  obtain ⟨hn, -⟩ | ⟨-, hn, -⟩ | ⟨-, -, hn, -⟩ | ⟨-, -, -, h⟩ := execParse_cases len s
  · exact absurd (hp.symm.trans hn) (by decide)
  · omega
  · omega
  · refine h.trans ?_
    rw [complete_eq, record_notify, trackStatus_eq_setTracker, State.afterParse]
    simp only [← statusChanged_eq_false_iff, ← Bool.not_eq_true, ite_not]

/-- PARSE changes the reply alone, or leaves `State.afterParse` (44_parser.md R181, R185). -/
theorem exec_parse_cases (len : Half) (s : State) :
    (∃ r, exec (.parse len) s = .next (s.answer r)) ∨ exec (.parse len) s = .next (s.afterParse len.toNat) := by
  obtain ⟨-, h⟩ | ⟨-, -, h⟩ | ⟨-, -, -, h⟩ | ⟨hp, hc, h2, -⟩ := execParse_cases len s
  · exact .inl ⟨_, h⟩
  · exact .inl ⟨_, h⟩
  · exact .inl ⟨_, h⟩
  · exact .inr (exec_parse_eq_afterParse hp h2 hc)

/-- The tracker's registers are 13, 14 and 15 (10_state.md R17). -/
theorem registerValue_setTracker (s : State) (md : BitVec 4) (l : Byte) {n : Nat} (hn : n < 13 ∨ n = 16) :
    registerValue (s.setTracker md l) n = registerValue s n := by
  obtain hlt | rfl := hn
  · interval_cases n <;> rfl
  · rfl

/-- RXQ is not a register (10_state.md R13). -/
theorem registerValue_pushRx (s : State) (bs : List Byte) (n : Nat) : registerValue (s.pushRx bs) n = registerValue s n := rfl

/-- PARSE writes no register but the tracker's (44_parser.md R185). -/
theorem registerValue_afterParse (s : State) (len : Nat) {n : Nat} (hn : n < 13 ∨ n = 16) :
    registerValue (s.afterParse len) n = registerValue s n := by
  rw [State.afterParse, registerValue_redraw_answer, registerValue_setTracker _ _ _ hn, registerValue_pushRx]

/-- A second PARSE reads the same bytes where the host has filled them (20_memory.md R52). -/
theorem parsed_afterParse (hf : ibufFilled s len) : parsed (s.afterParse len) len = parsed s len :=
  parseLoop_congr s (s.afterParse len) (s.afterParse_gen len) (s.afterParse_cfg len) len 0 len ParseAcc.start fun a _ ha => by
    obtain ⟨b, hb⟩ := Option.isSome_iff_exists.1 (hf a (by omega))
    simp [readIbuf, hb]

/-! ### The obligations -/

/-- Settles O45. -/
theorem shortBufferResubmits : Obligations.ShortBufferResubmits := by
  intro s len hp hw hl
  have hcap := two_le_of_capOk (Params.wf_iff.1 hw).2.1
  obtain ⟨hn, -⟩ | ⟨-, hn, -⟩ | ⟨-, -, -, h⟩ | ⟨-, -, hn, -⟩ := execParse_cases len s
  · exact absurd (hp.symm.trans hn) (by decide)
  · omega
  · exact h.trans (by rw [complete_eq, record_short]; rfl)
  · omega

/-- Settles O46: the loop collects the headers and the payload at the offsets stated. -/
theorem parseForwardsPayloadAndStatus : Obligations.ParseForwardsPayloadAndStatus := by
  intro s len hp hw h2 hc
  obtain ⟨-, -, hcap, -⟩ := Params.wf_iff.1 hw
  have hm := two_le_of_capOk hcap
  refine ⟨_, exec_parse_eq_afterParse hp h2 hc, ?_, rfl, fun b _ => getLsbD_parsed_lsrAcc hm len.toNat b,
    getLsbD_parsedModem hm h2⟩
  rw [State.afterParse_rxq, parsed_payload hm]

/-- Settles O47: the payload offsets are counted packet by packet. -/
theorem parseByteCount : Obligations.ParseByteCount := by
  intro s len hp hw h2 hc
  obtain ⟨-, -, hcap, -⟩ := Params.wf_iff.1 hw
  have hm := two_le_of_capOk hcap
  have hcount := length_payloadOffsets hm len.toNat
  refine ⟨_, exec_parse_eq_afterParse hp h2 hc, ?_⟩
  rw [State.afterParse_rxq, parsed_payload hm, List.length_append, List.length_map]
  omega

/-- Settles O48: the headers begin at 0 and 12, and the payload bytes are 2 to 11 and 14 to 18. -/
theorem twoHeaderBuffer : Obligations.TwoHeaderBuffer := by
  intro s hp hm hc
  have hm2 : 2 ≤ s.cfg.inMaxpkt := by omega
  have hheaders : headerOffsets s.cfg.inMaxpkt 19 = [0, 12] := by rw [hm]; decide
  have hpayload : payloadOffsets s.cfg.inMaxpkt 19 = (List.range 10).map (2 + ·) ++ (List.range 5).map (14 + ·) := by
    rw [hm]; decide
  have hline : (parsed s 19).lsrAcc = (readIbuf s 1 ||| readIbuf s 13) &&& s.cfg.maskOf s.gen := by
    refine BitVec.eq_of_getLsbD_eq fun b _ => ?_
    rw [getLsbD_parsed_lsrAcc hm2, hheaders]
    simp [Bool.and_or_distrib_right]
  obtain ⟨hcts, hdsr, hri, hdcd⟩ := getLsbD_parsedModem hm2 (len := 19) (by decide)
  rw [show lastHeaderOffset s.cfg.inMaxpkt 19 = 12 by rw [hm]; rfl] at hcts hdsr hdcd
  rw [hheaders] at hri
  refine ⟨_, exec_parse_eq_afterParse hp (by decide) hc, ?_, hline, hri.trans (by simp), hcts, hdsr, hdcd⟩
  rw [State.afterParse_rxq]
  simp [parsed_payload hm2, hpayload, Function.comp_def]

/-- Settles O49. -/
theorem notifyExactlyOnChange : Obligations.NotifyExactlyOnChange := fun s _ hp _ h2 hc =>
  ⟨_, exec_parse_eq_afterParse hp h2 hc, rfl, rfl, rfl, s.afterParse_reply _⟩

/-- Settles O50: the second PARSE gives the status the tracker holds. -/
theorem repeatedStatusIsSilent : Obligations.RepeatedStatusIsSilent := by
  intro s t len hp _ h2 hc hf h
  obtain rfl := Host.Outcome.next.inj ((exec_parse_eq_afterParse hp h2 hc).symm.trans h)
  have hparsed := parsed_afterParse hf
  have hmodem : parsedModem (s.afterParse len.toNat) len.toNat = parsedModem s len.toNat := by
    rw [parsedModem, hparsed, parsedModem]
  refine ⟨_, exec_parse_eq_afterParse (by simpa using hp) h2 (by simpa using hc), ?_, hmodem, congrArg ParseAcc.lsrAcc hparsed⟩
  rw [State.afterParse_reply, if_pos ⟨rfl, hmodem.symm, congrArg ParseAcc.lsrAcc hparsed.symm⟩]

/-- Settles O51: only a PARSE that parses changes more than the reply. -/
theorem parseFrame : Obligations.ParseFrame := by
  intro s t len h
  obtain ⟨r, hr⟩ | hr := exec_parse_cases len s
  · obtain rfl := Host.Outcome.next.inj (hr.symm.trans h)
    exact ⟨fun _ _ => rfl, fun _ => rfl, fun _ => rfl, rfl, rfl, rfl, List.prefix_rfl⟩
  · obtain rfl := Host.Outcome.next.inj (hr.symm.trans h)
    exact ⟨fun _ => registerValue_afterParse s _, by simp [State.afterParse]⟩

end Sys2Proof.Machine

/-! Exceptions (60_exceptions.md R210 to R217): which check refuses a command, and that a refused command leaves
nothing but its completion record. -/

namespace Sys2Proof.Machine

/-! ### The checks -/

/-- RESOLVE with a profile is refused by sequence (60_exceptions.md R213). -/
theorem exec_resolve_of_pvalid {s : State} (hp : s.pvalid = true) (rev : Half) (iface : Byte) (serial : Bool) :
    exec (.resolve rev iface serial) s = raise .errSequence s := by
  simpa [exec, hp] using execResolve_cases rev iface serial s

/-- Every other command is refused by sequence without a profile, before its operands are looked at (60_exceptions.md R213,
R215). -/
theorem exec_of_not_pvalid {s : State} {i : Instr} (hp : s.pvalid = false)
    (hi : ∀ rev iface serial, i ≠ .resolve rev iface serial) : exec i s = raise .errSequence s := by
  cases i with
  | resolve rev iface serial => exact absurd rfl (hi rev iface serial)
  | config speed dbits parity stop2 flow xonc xoffc =>
    simpa [exec, hp] using execConfig_cases speed dbits parity stop2 flow xonc xoffc s
  | brk on => simpa [exec, hp] using execBrk_cases on s
  | frame => simpa [exec, hp] using execFrame_cases s
  | parse len => simpa [exec, hp] using execParse_cases len s

/-- Settles O10. -/
theorem sequenceErrors : Obligations.SequenceErrors := fun _ => ⟨exec_resolve_of_pvalid, fun hp _ => exec_of_not_pvalid hp⟩

/-- CONFIG is refused by operand, whatever the speed, when a line setting is outside its set (60_exceptions.md R213, R215). -/
theorem exec_config_of_bad_operand {s : State} {dbits : BitVec 4} {parity flow : BitVec 2} (hp : s.pvalid = true)
    (ho : lineOperandsOk dbits parity flow = false) (speed : BitVec 32) (stop2 : Bool) (xonc xoffc : Byte) :
    exec (.config speed dbits parity stop2 flow xonc xoffc) s = raise .errBadOperand s := by
  simpa [exec, hp, ho] using execConfig_cases speed dbits parity stop2 flow xonc xoffc s

/-- CONFIG is refused by speed when its operands pass and the speed has no encoding (60_exceptions.md R211, R215). -/
theorem exec_config_of_not_encodes {s : State} {speed : BitVec 32} {dbits : BitVec 4} {parity flow : BitVec 2}
    (hp : s.pvalid = true) (ho : lineOperandsOk dbits parity flow = true)
    (he : encodeBaud s.cfg s.gen.cls s.hindex s.clk12m speed.toNat = none) (stop2 : Bool) (xonc xoffc : Byte) :
    exec (.config speed dbits parity stop2 flow xonc xoffc) s = raise .errUnreachableBaud s := by
  simpa [exec, hp, ho, he] using execConfig_cases speed dbits parity stop2 flow xonc xoffc s

/-- PARSE is refused by operand when LEN is above IBUF_CAP (60_exceptions.md R213). -/
theorem exec_parse_of_gt {s : State} {len : Half} (hp : s.pvalid = true) (hlen : s.cfg.ibufCap < len.toNat) :
    exec (.parse len) s = raise .errBadOperand s := by
  simpa [exec, hp, hlen, hlen.not_ge] using execParse_cases len s

/-- Settles O11: line settings outside their sets are those `lineOperandsOk` rejects. -/
theorem operandErrors : Obligations.OperandErrors := by
  intro s speed dbits parity stop2 flow xonc xoffc len hp
  refine ⟨fun hbad => exec_config_of_bad_operand hp ?_ speed stop2 xonc xoffc, exec_parse_of_gt hp⟩
  rw [Bool.eq_false_iff, ne_eq, lineOperandsOk_iff]
  omega

/-- Settles O36. -/
theorem configUnreachableSpeed : Obligations.ConfigUnreachableSpeed :=
  fun _ _ _ _ stop2 _ xonc xoffc hp hd5 hd8 hpar hflow he =>
    exec_config_of_not_encodes hp (lineOperandsOk_iff.2 ⟨hd5, hd8, hpar, hflow⟩) he stop2 xonc xoffc

/-! ### What a refused command leaves -/

/-- The flags of a completion record lie above its status (30_encoding.md R78). -/
theorem setWidth_flagAt {n : Nat} (hn : 8 ≤ n) (b : Bool) : (flagAt n b).setWidth 8 = 0#8 := by
  refine BitVec.eq_of_getLsbD_eq fun j hj => ?_
  simp [flagAt, show j < n by omega]

/-- The low byte of a completion record is its status code (30_encoding.md R78). -/
theorem setWidth_record (c : Completion) : c.record.setWidth 8 = c.status.code := by
  simp [Completion.record, BitVec.setWidth_or, setWidth_flagAt]

/-- A command raises an error, finds the buffer short, both in the state it started in, or completes OK. -/
theorem CommandLeaves.refused_or_ok {s u : State} {i : Instr} {c : Completion} (h : CommandLeaves s i c u) :
    (u = s ∧ ((∃ e, c = { status := e }) ∨ c = { status := .shortBuffer, resubmit := true })) ∨ c.status = .ok := by
  cases h with
  | errored _ e => exact .inl ⟨rfl, .inl ⟨e, rfl⟩⟩
  | short => exact .inl ⟨rfl, .inr rfl⟩
  | resolved | configured | broke | framed | parsed => exact .inr rfl

/-- An issued descriptor changes the reply alone, to an error's record without flags or to SHORT_BUFFER's, or its record has the
status OK. -/
theorem ActionLeaves.issue_cases {s t : State} {d : Descriptor} (h : ActionLeaves s (.issue d) t) :
    (∃ e : Status, t = s.answer (.completion (e.code.setWidth 16))) ∨ t = s.answer (.completion 0x0402#16)
    ∨ ∃ r : Half, t.reply = some (.completion r) ∧ r.setWidth 8 = 0x00#8 := by
  cases h with
  | illegal => exact .inl ⟨.errIllegalCmd, by rw [record_error]⟩
  | command d i c u hd hu =>
    obtain ⟨rfl, ⟨e, rfl⟩ | rfl⟩ | hc := hu.refused_or_ok
    · exact .inl ⟨e, by rw [record_error]⟩
    · exact .inr (.inl (by rw [record_short]))
    · exact .inr (.inr ⟨c.record, rfl, by rw [setWidth_record, hc]; rfl⟩)

/-- A step whose oldest action issues a descriptor takes it from the inbox and performs it (70_reset_and_hazards.md R250). -/
theorem step_issue_next {s t : State} {d : Descriptor} {rest : List HostAction} (hi : s.inbox = .issue d :: rest)
    (h : step s = .next t) : ActionLeaves (s.advance rest) (.issue d) t := by
  obtain ⟨hw, -⟩ := step_next h
  exact hostAct_next ((step_cons hw hi).symm.trans h)

/-- Settles O8: a record with the status OK is neither an error's nor SHORT_BUFFER's. -/
theorem errorsHaveNoEffect : Obligations.ErrorsHaveNoEffect := by
  intro s t d rest c hi h hc herr
  obtain ⟨e, rfl⟩ | rfl | ⟨r, hr, hok⟩ := (step_issue_next hi h).issue_cases
  · cases hc
    exact ⟨rfl, fun _ => by cases e <;> decide⟩
  · cases hc
    exact ⟨rfl, by decide⟩
  · cases hr.symm.trans hc
    simp [errorRecord, hok] at herr

/-- A step does not read the last reply: it is gone before the action acts (60_exceptions.md R216). -/
theorem step_answer (s : State) (r : Reply) : step (s.answer r) = step s := rfl

/-- Settles O9. -/
theorem erroringCommandLeavesNoTrace : Obligations.ErroringCommandLeavesNoTrace := by
  intro s t d rest c hi h hc herr
  obtain ⟨rfl, -⟩ := errorsHaveNoEffect s t d rest c hi h hc (.inl herr)
  exact step_answer { s with inbox := rest } (.completion c)

end Sys2Proof.Machine

/-! Reset and waiting (70_reset_and_hazards.md R240 to R242): what a reset and a step with no host action leave, and the registers
before a profile exists. -/

namespace Sys2Proof.Machine

variable {s t u : State}

/-! ### Waiting and reset -/

/-- A step with no host action at hand changes the reply alone. -/
theorem step_nil (hw : s.cfg.wf = true) (hi : s.inbox = []) : step s = .next (s.advance []) :=
  (step_eq s hw).trans (serveHost_nil s hi)

/-- Settles O56: the inbox is empty before and after. -/
theorem waitsForTheHost : Obligations.WaitsForTheHost := by
  intro s hw hi
  rw [step_nil hw hi, State.advance, ← hi]

/-- A step that resets leaves the state of 10_state.md R23 with the parameters and the later host actions as they were. -/
theorem step_reset {rest : List HostAction} (hw : s.cfg.wf = true) (hi : s.inbox = .reset :: rest) :
    step s = .next { State.resetWith s.cfg with inbox := rest, draws := s.draws + 1 } :=
  step_cons hw hi

/-- The inbox and the draw counter are no registers (10_state.md R13). -/
theorem sameRegisters_with_inbox_draws (s : State) (inbox : List HostAction) (draws : Nat) :
    sameRegisters s { s with inbox := inbox, draws := draws } := fun _ => rfl

/-- Settles O55. -/
theorem resetActionResets : Obligations.ResetActionResets := fun s rest hw hi =>
  ⟨_, step_reset hw hi, rfl, State.resetWith_reply s.cfg, sameRegisters_with_inbox_draws _ rest _⟩

/-! ### Before RESOLVE -/

/-- While no profile exists, a command changes nothing or is a RESOLVE that creates one: the others ask for PVALID. -/
theorem CommandLeaves.eq_or_pvalid {i : Instr} {c : Completion} (h : CommandLeaves s i c u) (hp : s.pvalid = false) :
    u = s ∨ u.pvalid = true := by
  cases h with
  | errored | short => exact .inl rfl
  | resolved => exact .inr (State.setProfile_pvalid ..)
  | configured _ _ _ _ _ _ _ _ _ hv | broke _ hv | framed hv | parsed _ hv => exact absurd (hp.symm.trans hv) (by decide)

/-- A host action after which there is still no profile leaves every register as it was, or resets. -/
theorem ActionLeaves.sameRegisters_of_unresolved {a : HostAction} (h : ActionLeaves s a t) (hp : s.pvalid = false)
    (ht : t.pvalid = false) : sameRegisters s t ∨ sameRegisters (State.resetWith s.cfg) t := by
  cases h with
  | illegal | appended | wrote | readByte | consumed | readRegister => exact .inl fun _ => rfl
  | command d i c u hd hu =>
    obtain rfl | hv := hu.eq_or_pvalid hp
    · exact .inl fun _ => rfl
    · exact absurd (hv.symm.trans ht) (by decide)
  | reset => exact .inr (sameRegisters_with_inbox_draws _ _ _)

/-- Settles O18. -/
theorem unresolvedRegistersStay : Obligations.UnresolvedRegistersStay := by
  intro s t hp hs h ht
  obtain ⟨-, rfl⟩ | ⟨a, rest, -, ha⟩ := step_next_cases h
  · exact hs
  · obtain hsame | hreset := ha.sameRegisters_of_unresolved hp ht
    · exact fun n => (hsame n).trans (hs n)
    · exact hreset

end Sys2Proof.Machine
